-- ==== Sys2Proof/Word.lean ====
section
/-! DEFINITION. The word and byte types of the machine (spec rules R7, R8, R20): every register, address, immediate and
instruction is a 16-bit vector, memory is made of bytes. -/

namespace Sys2Proof

/-- A 16-bit value: a register, an address, an immediate or an instruction word (R20, R80). -/
abbrev Word := BitVec 16

/-- One byte of memory (R50). -/
abbrev Byte := BitVec 8

end Sys2Proof
end

