-- ==== Sys2Proof/Config.lean ====
section
/-! DEFINITION. What the spec leaves to the implementation or to the platform and gives no value for. Each constant here has
no body: nothing in Lean can evaluate it, so a claim proved of the model holds whatever its value is. The parameters for
which the spec does give a default (ENDIAN, UNIFIED_MEM, R0_ZERO, LR_INDEX, ILR_INDEX, RESET_VECTOR, FLAG_RULES and the
readings U6, U20) are the record of Sys2Proof/Machine/Params.lean, which a field of the state holds. -/

namespace Sys2Proof

/-- INT_VECTOR (R6, R325, D26, N24): the value of pc after an interrupt is taken. The spec says OPEN. It is used where the
platform record of the state gives no address (log entry 5). -/
opaque Config.intVector : Word

/-- UPPER_MAP (R6, R58, D22, N15): which word of the upper two banks the word address `ea[15:1]` names. The spec says OPEN
(log entry 6). -/
opaque Config.upperMap : BitVec 15 → Nat

/-- The level of the interrupt request input (R36, R324) at the k-th sample for which the state supplies none: a free input
(log entry 7). -/
opaque Config.irqInput : Nat → Bool

/-- The datum the platform presents at a port (R59, R310, U17) at the k-th port read for which the state supplies none: a
free input (log entry 8). -/
opaque Config.portInput : Nat → Word → Word

end Sys2Proof
end

