-- ==== Sys2Proof/Machine/Params.lean ====
section
/-! DEFINITION. The parameters that the spec gives a default (R6, 92_eei_decisions.md last paragraph, 93_implementation_defined.md
U6, U8, U18, U20, U21, U22, U24), as plain data: a field of the state holds them, every operation reads them there, and no step
changes them. `Params.spec` is the defaults. PC_BITS, PC_STEP and PORT_BITS are built in (R25, R26, R59). -/

namespace Sys2Proof.Machine

/-- Which byte of a word its even address names (R51, D3). -/
inductive Endian where
  | little
  | big
  deriving DecidableEq, Repr

/-- What LDB and ULDB leave in bits 15:8 of the register (R289, D20, U6). -/
inductive ByteFill where
  | zero
  | keep
  deriving DecidableEq, Repr

/-- How mulu reads its B operand (R180, D16, U20); the A operand is signed in both readings. -/
inductive MuluReading where
  | signedSigned
  | signedUnsigned
  deriving DecidableEq, Repr

/-- How an operation writes C or V (R170): not at all, with 0, as the sum's, or as the difference's. -/
inductive ArithFlag where
  | keep
  | clear
  | ofSum
  | ofDifference
  deriving DecidableEq, Repr

/-- One row of FLAG_RULES (R170): whether Z and S are written, and how C and V are. -/
structure FlagRule where
  z : Bool
  c : ArithFlag
  s : Bool
  v : ArithFlag
  deriving DecidableEq, Repr

/-- Which of Z, C and S a one-bit shift or rotate writes (R126, D15, U18). -/
structure ShiftFlagRule where
  z : Bool
  c : Bool
  s : Bool
  deriving DecidableEq, Repr

/-- FLAG_RULES (R170, D11, U18): a row for each ALU operation, and one for the shifts and rotates. -/
structure FlagRules where
  mov : FlagRule
  add : FlagRule
  adc : FlagRule
  sub : FlagRule
  sbb : FlagRule
  and : FlagRule
  or : FlagRule
  xor : FlagRule
  mul : FlagRule
  mulu : FlagRule
  rrn : FlagRule
  rln : FlagRule
  cmp : FlagRule
  test : FlagRule
  umulu : FlagRule
  bswap : FlagRule
  shift : ShiftFlagRule
  deriving DecidableEq, Repr

/-- The parameters (R6). -/
structure Params where
  /-- ENDIAN (R51, D3) -/
  endian : Endian
  /-- UNIFIED_MEM (R66, D2): the fetch reads main memory, and not a code memory of its own -/
  unifiedMem : Bool
  /-- R0_ZERO (R21, D8): register 0 reads zero and discards writes -/
  r0Zero : Bool
  /-- LR_INDEX (R32, D9) -/
  lrIndex : BitVec 7
  /-- ILR_INDEX (R32, D9) -/
  ilrIndex : BitVec 7
  /-- RESET_VECTOR (R360, D28) -/
  resetVector : Word
  /-- FLAG_RULES (R170, D11) -/
  flagRules : FlagRules
  /-- the reading of U6 (R283, R289, D20) -/
  byteLoadFill : ByteFill
  /-- the reading of U20 (R180, D16) -/
  muluReading : MuluReading
  deriving DecidableEq, Repr

/-- The flag table of the spec (R170, R126, R29). -/
def FlagRules.spec : FlagRules where
  mov := ⟨false, .keep, false, .keep⟩
  add := ⟨true, .ofSum, true, .ofSum⟩
  adc := ⟨true, .ofSum, true, .ofSum⟩
  sub := ⟨true, .ofDifference, true, .ofDifference⟩
  sbb := ⟨true, .ofDifference, true, .ofDifference⟩
  and := ⟨true, .keep, true, .keep⟩
  or := ⟨true, .keep, true, .keep⟩
  xor := ⟨true, .keep, true, .keep⟩
  mul := ⟨true, .keep, true, .keep⟩
  mulu := ⟨true, .keep, true, .keep⟩
  rrn := ⟨false, .keep, false, .keep⟩
  rln := ⟨false, .keep, false, .keep⟩
  cmp := ⟨true, .ofDifference, true, .ofDifference⟩
  test := ⟨true, .keep, true, .keep⟩
  umulu := ⟨true, .keep, true, .keep⟩
  bswap := ⟨false, .keep, false, .keep⟩
  shift := ⟨true, true, true⟩

/-- The spec's values of the parameters (R6). -/
def Params.spec : Params where
  endian := .little
  unifiedMem := true
  r0Zero := true
  lrIndex := 15
  ilrIndex := 14
  resetVector := 0x0000
  flagRules := FlagRules.spec
  byteLoadFill := .zero
  muluReading := .signedSigned

/-- PC_STEP (R6, R26, D1): the address difference between consecutive instructions. -/
def pcStep : Word := 2

end Sys2Proof.Machine
end

