-- ==== Sys2Proof/Machine/Bits.lean ====
section
/-! DEFINITION. The bit-field and byte-order helpers of the decoder, the encoder and the memory operations: the four nibbles
of an instruction word and the words put together from fields (R82), and the two bytes of a word (R51). -/

namespace Sys2Proof

/-- `w[15:12]`, the class (R81). -/
def nibble3 (w : Word) : BitVec 4 := w.extractLsb' 12 4

/-- `w[11:8]` (R82). -/
def nibble2 (w : Word) : BitVec 4 := w.extractLsb' 8 4

/-- `w[7:4]` (R82). -/
def nibble1 (w : Word) : BitVec 4 := w.extractLsb' 4 4

/-- `w[3:0]` (R82). -/
def nibble0 (w : Word) : BitVec 4 := w.extractLsb' 0 4

/-- `w[7:0]`. -/
def low8 (w : Word) : BitVec 8 := w.extractLsb' 0 8

/-- `w[10:0]`, the free bits of class 0 sub-classes 8 to 15 (R147). -/
def low11 (w : Word) : BitVec 11 := w.extractLsb' 0 11

/-- `w[11:0]`, the IMM_HI field of format I (R82). -/
def low12 (w : Word) : BitVec 12 := w.extractLsb' 0 12

/-- `w[11]`, the DIR bit of format X (R82). -/
def dirBit (w : Word) : Bool := w.getLsbD 11

/-- `w[10:4]`, the RX field of format X (R82). -/
def rxField (w : Word) : BitVec 7 := w.extractLsb' 4 7

/-- The word with the four nibbles given, most significant first (formats RR, RI, B, U, M, T, P and Z of R82). -/
def word4 (a b c d : BitVec 4) : Word := a ++ b ++ c ++ d

/-- The word `{hi, lo}` of a class 0 sub-class: `w[15:8]` and `w[7:0]` (R85). -/
def word8 (hi lo : BitVec 8) : Word := hi ++ lo

/-- Format I (R82): class 1 and the 12 bits of IMM_HI. -/
def wordImm (h : BitVec 12) : Word := 0x1#4 ++ h

/-- Format X (R82): class 6, DIR, RX and RL. -/
def wordExt (dir : BitVec 1) (rx : BitVec 7) (rl : BitVec 4) : Word := 0x6#4 ++ dir ++ rx ++ rl

/-- The byte of a word at its even address (R51). -/
def evenByte (e : Machine.Endian) (w : Word) : Byte :=
  match e with
  | .little => w.extractLsb' 0 8
  | .big => w.extractLsb' 8 8

/-- The byte of a word at its odd address (R51). -/
def oddByte (e : Machine.Endian) (w : Word) : Byte :=
  match e with
  | .little => w.extractLsb' 8 8
  | .big => w.extractLsb' 0 8

/-- The word whose byte at the even address is `even` and at the odd address `odd` (R51). -/
def joinBytes (e : Machine.Endian) (even odd : Byte) : Word :=
  match e with
  | .little => odd ++ even
  | .big => even ++ odd

end Sys2Proof
end

