-- ==== Sys2Proof/Syntax.lean ====
section
/-! DEFINITION. The instructions: one constructor per row of spec/opcode_table.json, in the table's order, with the row's operand
fields (R82, R83). Three groups of rows are different names of the same words: a class 5 word is MOV.cc and one of its sixteen
instances, a class 6 word is CLASS6_WORD and, under the prefix left in the immediate register, one of sixteen operations, and a
class 9 word is CLASS9_WORD and one of sixteen conditional operations (R92, R248, R260, R265). Each of those rows has its
constructor; Decode.lean says which of them a word alone is and which it is under a prefix. -/

namespace Sys2Proof

/-- The 4-bit number of a low register r0 to r15 (R22, R83). -/
abbrev LowReg := BitVec 4

/-- The number of any of the 128 registers (R21), as the RX field of class 6 holds it. -/
abbrev RegNum := BitVec 7

/-- A 4-bit immediate field, IMM LO or IMM (R83, R90). -/
abbrev Imm4 := BitVec 4

/-- The sixteen ALU operations 0 to 15, in the order of their numbers (R87). -/
inductive AluOp where
  | mov
  | add
  | adc
  | sub
  | sbb
  | and
  | or
  | xor
  | mul
  | mulu
  | rrn
  | rln
  | cmp
  | test
  | umulu
  | bswap
  deriving DecidableEq, Repr

/-- The seven one-bit shifts and rotates of class 0 sub-class 4 (R86, operations 16 to 22). -/
inductive ShiftOp where
  | asr
  | lsr
  | lsl
  | rolc
  | rorc
  | rol
  | ror
  deriving DecidableEq, Repr

/-- The sixteen conditions 0 to 15, in the order of their numbers (R88, R230). -/
inductive Cond where
  | z
  | nz
  | s
  | ns
  | c
  | nc
  | v
  | nv
  | lt
  | le
  | gt
  | ge
  | leu
  | gtu
  | a
  | l
  deriving DecidableEq, Repr

/-- The DIR bit of class 6 (R260): `toRx` is 0 (DEST = RX, SRC = RL), `toRl` is 1 (DEST = RL, SRC = RX). -/
inductive Dir where
  | toRx
  | toRl
  deriving DecidableEq, Repr

/-- The instructions of spec/opcode_table.json, row by row. -/
inductive Instr where
  /-- NOP, R121. -/
  | nop
  /-- RET, R122. -/
  | ret
  /-- IRET, R123. -/
  | iret
  /-- STIX, R124. -/
  | stix (r : LowReg)
  /-- RSIX, R125. -/
  | rsix (r : LowReg)
  /-- ASR, R127. -/
  | asr (r : LowReg)
  /-- LSR, R128. -/
  | lsr (r : LowReg)
  /-- LSL, R129. -/
  | lsl (r : LowReg)
  /-- ROLC, R130. -/
  | rolc (r : LowReg)
  /-- RORC, R131. -/
  | rorc (r : LowReg)
  /-- ROL, R132. -/
  | rol (r : LowReg)
  /-- ROR, R133. -/
  | ror (r : LowReg)
  /-- CC, R134. -/
  | cc
  /-- SC, R135. -/
  | sc
  /-- CZ, R136. -/
  | cz
  /-- SZ, R137. -/
  | sz
  /-- CS, R138. -/
  | cs
  /-- SS, R139. -/
  | ss
  /-- STF, R140. -/
  | stf (r : LowReg)
  /-- RSF, R141. -/
  | rsf (r : LowReg)
  /-- RESERVED_ALU31, R142. -/
  | reservedAlu31 (r : LowReg)
  /-- RESERVED_SUB5, R143. -/
  | reservedSub5 (b : BitVec 8)
  /-- CLI, R144. -/
  | cli
  /-- STI, R145. -/
  | sti
  /-- SLEEP, R146. -/
  | sleep
  /-- RESERVED_SUB8_15, R147. -/
  | reservedSub8To15 (b : BitVec 11)
  /-- RESERVED_NOP_NONZERO, R94. -/
  | reservedNopNonzero (b : BitVec 8)
  /-- RESERVED_RET_NONZERO, R94. -/
  | reservedRetNonzero (b : BitVec 8)
  /-- IMM, R160. -/
  | imm (h : BitVec 12)
  /-- MOV (class 2), R188. -/
  | movRR (d : LowReg) (r : LowReg)
  /-- ADD (class 2), R189. -/
  | addRR (d : LowReg) (r : LowReg)
  /-- ADC (class 2), R190. -/
  | adcRR (d : LowReg) (r : LowReg)
  /-- SUB (class 2), R191. -/
  | subRR (d : LowReg) (r : LowReg)
  /-- SBB (class 2), R192. -/
  | sbbRR (d : LowReg) (r : LowReg)
  /-- AND (class 2), R193. -/
  | andRR (d : LowReg) (r : LowReg)
  /-- OR (class 2), R194. -/
  | orRR (d : LowReg) (r : LowReg)
  /-- XOR (class 2), R195. -/
  | xorRR (d : LowReg) (r : LowReg)
  /-- MUL (class 2), R196. -/
  | mulRR (d : LowReg) (r : LowReg)
  /-- MULU (class 2), R197. -/
  | muluRR (d : LowReg) (r : LowReg)
  /-- RRN (class 2), R198. -/
  | rrnRR (d : LowReg) (r : LowReg)
  /-- RLN (class 2), R199. -/
  | rlnRR (d : LowReg) (r : LowReg)
  /-- CMP (class 2), R200. -/
  | cmpRR (d : LowReg) (r : LowReg)
  /-- TEST (class 2), R201. -/
  | testRR (d : LowReg) (r : LowReg)
  /-- UMULU (class 2), R202. -/
  | umuluRR (d : LowReg) (r : LowReg)
  /-- BSWAP (class 2), R203. -/
  | bswapRR (d : LowReg) (r : LowReg)
  /-- MOV (class 3), R205. -/
  | movRI (d : LowReg) (lo : Imm4)
  /-- ADD (class 3), R206. -/
  | addRI (d : LowReg) (lo : Imm4)
  /-- ADC (class 3), R207. -/
  | adcRI (d : LowReg) (lo : Imm4)
  /-- SUB (class 3), R208. -/
  | subRI (d : LowReg) (lo : Imm4)
  /-- SBB (class 3), R209. -/
  | sbbRI (d : LowReg) (lo : Imm4)
  /-- AND (class 3), R210. -/
  | andRI (d : LowReg) (lo : Imm4)
  /-- OR (class 3), R211. -/
  | orRI (d : LowReg) (lo : Imm4)
  /-- XOR (class 3), R212. -/
  | xorRI (d : LowReg) (lo : Imm4)
  /-- MUL (class 3), R213. -/
  | mulRI (d : LowReg) (lo : Imm4)
  /-- MULU (class 3), R214. -/
  | muluRI (d : LowReg) (lo : Imm4)
  /-- RESERVED_CLASS3_OP10 (class 3), R218. -/
  | reservedClass3Op10 (d : LowReg) (lo : Imm4)
  /-- RESERVED_CLASS3_OP11 (class 3), R218. -/
  | reservedClass3Op11 (d : LowReg) (lo : Imm4)
  /-- CMP (class 3), R215. -/
  | cmpRI (d : LowReg) (lo : Imm4)
  /-- TEST (class 3), R216. -/
  | testRI (d : LowReg) (lo : Imm4)
  /-- UMULU (class 3), R217. -/
  | umuluRI (d : LowReg) (lo : Imm4)
  /-- RESERVED_CLASS3_OP15 (class 3), R218. -/
  | reservedClass3Op15 (d : LowReg) (lo : Imm4)
  /-- BZ, R232. -/
  | bz (r : LowReg) (lo : Imm4)
  /-- BNZ, R233. -/
  | bnz (r : LowReg) (lo : Imm4)
  /-- BS, R234. -/
  | bs (r : LowReg) (lo : Imm4)
  /-- BNS, R235. -/
  | bns (r : LowReg) (lo : Imm4)
  /-- BC, R236. -/
  | bc (r : LowReg) (lo : Imm4)
  /-- BNC, R237. -/
  | bnc (r : LowReg) (lo : Imm4)
  /-- BV, R238. -/
  | bv (r : LowReg) (lo : Imm4)
  /-- BNV, R239. -/
  | bnv (r : LowReg) (lo : Imm4)
  /-- BLT, R240. -/
  | blt (r : LowReg) (lo : Imm4)
  /-- BLE, R241. -/
  | ble (r : LowReg) (lo : Imm4)
  /-- BGT, R242. -/
  | bgt (r : LowReg) (lo : Imm4)
  /-- BGE, R243. -/
  | bge (r : LowReg) (lo : Imm4)
  /-- BLEU, R244. -/
  | bleu (r : LowReg) (lo : Imm4)
  /-- BGTU, R245. -/
  | bgtu (r : LowReg) (lo : Imm4)
  /-- BA, R246. -/
  | ba (r : LowReg) (lo : Imm4)
  /-- BL, R247. -/
  | bl (r : LowReg) (lo : Imm4)
  /-- MOV.cc (class 5), R248. -/
  | movCc (cond : Cond) (d : LowReg) (r : LowReg)
  /-- MOV.Z (class 5), R248. -/
  | movZ (d : LowReg) (r : LowReg)
  /-- MOV.NZ (class 5), R248. -/
  | movNz (d : LowReg) (r : LowReg)
  /-- MOV.S (class 5), R248. -/
  | movS (d : LowReg) (r : LowReg)
  /-- MOV.NS (class 5), R248. -/
  | movNs (d : LowReg) (r : LowReg)
  /-- MOV.C (class 5), R248. -/
  | movC (d : LowReg) (r : LowReg)
  /-- MOV.NC (class 5), R248. -/
  | movNc (d : LowReg) (r : LowReg)
  /-- MOV.V (class 5), R248. -/
  | movV (d : LowReg) (r : LowReg)
  /-- MOV.NV (class 5), R248. -/
  | movNv (d : LowReg) (r : LowReg)
  /-- MOV.LT (class 5), R248. -/
  | movLt (d : LowReg) (r : LowReg)
  /-- MOV.LE (class 5), R248. -/
  | movLe (d : LowReg) (r : LowReg)
  /-- MOV.GT (class 5), R248. -/
  | movGt (d : LowReg) (r : LowReg)
  /-- MOV.GE (class 5), R248. -/
  | movGe (d : LowReg) (r : LowReg)
  /-- MOV.LEU (class 5), R248. -/
  | movLeu (d : LowReg) (r : LowReg)
  /-- MOV.GTU (class 5), R248. -/
  | movGtu (d : LowReg) (r : LowReg)
  /-- MOV.A (class 5), R248. -/
  | movA (d : LowReg) (r : LowReg)
  /-- MOV.L (class 5), R248. -/
  | movL (d : LowReg) (r : LowReg)
  /-- CLASS6_WORD (class 6), R260. -/
  | class6Word (dir : Dir) (rx : RegNum) (rl : LowReg)
  /-- MOV (class 6), R400. -/
  | movX (dir : Dir) (rx : RegNum) (rl : LowReg)
  /-- ADD (class 6), R401. -/
  | addX (dir : Dir) (rx : RegNum) (rl : LowReg)
  /-- ADC (class 6), R402. -/
  | adcX (dir : Dir) (rx : RegNum) (rl : LowReg)
  /-- SUB (class 6), R403. -/
  | subX (dir : Dir) (rx : RegNum) (rl : LowReg)
  /-- SBB (class 6), R404. -/
  | sbbX (dir : Dir) (rx : RegNum) (rl : LowReg)
  /-- AND (class 6), R405. -/
  | andX (dir : Dir) (rx : RegNum) (rl : LowReg)
  /-- OR (class 6), R406. -/
  | orX (dir : Dir) (rx : RegNum) (rl : LowReg)
  /-- XOR (class 6), R407. -/
  | xorX (dir : Dir) (rx : RegNum) (rl : LowReg)
  /-- MUL (class 6), R408. -/
  | mulX (dir : Dir) (rx : RegNum) (rl : LowReg)
  /-- MULU (class 6), R409. -/
  | muluX (dir : Dir) (rx : RegNum) (rl : LowReg)
  /-- RRN (class 6), R410. -/
  | rrnX (dir : Dir) (rx : RegNum) (rl : LowReg)
  /-- RLN (class 6), R411. -/
  | rlnX (dir : Dir) (rx : RegNum) (rl : LowReg)
  /-- CMP (class 6), R412. -/
  | cmpX (dir : Dir) (rx : RegNum) (rl : LowReg)
  /-- TEST (class 6), R413. -/
  | testX (dir : Dir) (rx : RegNum) (rl : LowReg)
  /-- UMULU (class 6), R414. -/
  | umuluX (dir : Dir) (rx : RegNum) (rl : LowReg)
  /-- BSWAP (class 6), R415. -/
  | bswapX (dir : Dir) (rx : RegNum) (rl : LowReg)
  /-- ULD, R282. -/
  | uld (idx : LowReg) (reg : LowReg)
  /-- ULDB, R283. -/
  | uldb (idx : LowReg) (reg : LowReg)
  /-- ULDBSX, R284. -/
  | uldbsx (idx : LowReg) (reg : LowReg)
  /-- UST, R285. -/
  | ust (idx : LowReg) (reg : LowReg)
  /-- RESERVED_CLASS7_FLG5, R287. -/
  | reservedClass7Flg5 (idx : LowReg) (reg : LowReg)
  /-- USTB, R286. -/
  | ustb (idx : LowReg) (reg : LowReg)
  /-- LDBSX, R288. -/
  | ldbsx (idx : LowReg) (reg : LowReg) (lo : Imm4)
  /-- CLASS9_WORD (class 9), R265. -/
  | class9Word (d : LowReg) (a : LowReg) (b : LowReg)
  /-- MOV.cc (class 9), R420. -/
  | movT (cond : Cond) (d : LowReg) (a : LowReg) (b : LowReg)
  /-- ADD.cc (class 9), R421. -/
  | addT (cond : Cond) (d : LowReg) (a : LowReg) (b : LowReg)
  /-- ADC.cc (class 9), R422. -/
  | adcT (cond : Cond) (d : LowReg) (a : LowReg) (b : LowReg)
  /-- SUB.cc (class 9), R423. -/
  | subT (cond : Cond) (d : LowReg) (a : LowReg) (b : LowReg)
  /-- SBB.cc (class 9), R424. -/
  | sbbT (cond : Cond) (d : LowReg) (a : LowReg) (b : LowReg)
  /-- AND.cc (class 9), R425. -/
  | andT (cond : Cond) (d : LowReg) (a : LowReg) (b : LowReg)
  /-- OR.cc (class 9), R426. -/
  | orT (cond : Cond) (d : LowReg) (a : LowReg) (b : LowReg)
  /-- XOR.cc (class 9), R427. -/
  | xorT (cond : Cond) (d : LowReg) (a : LowReg) (b : LowReg)
  /-- MUL.cc (class 9), R428. -/
  | mulT (cond : Cond) (d : LowReg) (a : LowReg) (b : LowReg)
  /-- MULU.cc (class 9), R429. -/
  | muluT (cond : Cond) (d : LowReg) (a : LowReg) (b : LowReg)
  /-- RRN.cc (class 9), R430. -/
  | rrnT (cond : Cond) (d : LowReg) (a : LowReg) (b : LowReg)
  /-- RLN.cc (class 9), R431. -/
  | rlnT (cond : Cond) (d : LowReg) (a : LowReg) (b : LowReg)
  /-- CMP.cc (class 9), R432. -/
  | cmpT (cond : Cond) (d : LowReg) (a : LowReg) (b : LowReg)
  /-- TEST.cc (class 9), R433. -/
  | testT (cond : Cond) (d : LowReg) (a : LowReg) (b : LowReg)
  /-- UMULU.cc (class 9), R434. -/
  | umuluT (cond : Cond) (d : LowReg) (a : LowReg) (b : LowReg)
  /-- BSWAP.cc (class 9), R435. -/
  | bswapT (cond : Cond) (d : LowReg) (a : LowReg) (b : LowReg)
  /-- LDB, R289. -/
  | ldb (idx : LowReg) (reg : LowReg) (lo : Imm4)
  /-- STB, R290. -/
  | stb (idx : LowReg) (reg : LowReg) (lo : Imm4)
  /-- LD, R291. -/
  | ld (idx : LowReg) (reg : LowReg) (lo : Imm4)
  /-- ST, R292. -/
  | st (idx : LowReg) (reg : LowReg) (lo : Imm4)
  /-- IN, R310. -/
  | inPort (rp : LowReg) (rv : LowReg) (lo : Imm4)
  /-- OUT, R311. -/
  | outPort (rp : LowReg) (rv : LowReg) (lo : Imm4)
  deriving DecidableEq, Repr

end Sys2Proof
end

