-- ==== Sys2Proof/WellFormed.lean ====
section
/-! DEFINITION. Which terms of Instr stand for words of the table. The operand types hold almost every bound; the two checks left
are the ranges of the reserved rows that give way to the exact rows NOP, RET and IRET (R94). -/

namespace Sys2Proof

/-- The instruction is one that a word of the opcode table encodes. -/
def Instr.wellFormed (i : Instr) : Bool :=
  match i with
  | .nop => true
  | .ret => true
  | .iret => true
  | .stix _ => true
  | .rsix _ => true
  | .asr _ => true
  | .lsr _ => true
  | .lsl _ => true
  | .rolc _ => true
  | .rorc _ => true
  | .rol _ => true
  | .ror _ => true
  | .cc => true
  | .sc => true
  | .cz => true
  | .sz => true
  | .cs => true
  | .ss => true
  | .stf _ => true
  | .rsf _ => true
  | .reservedAlu31 _ => true
  | .reservedSub5 _ => true
  | .cli => true
  | .sti => true
  | .sleep => true
  | .reservedSub8To15 _ => true
  | .reservedNopNonzero b => b != 0x00
  | .reservedRetNonzero b => b != 0x00 && b != 0x01
  | .imm _ => true
  | .movRR _ _ => true
  | .addRR _ _ => true
  | .adcRR _ _ => true
  | .subRR _ _ => true
  | .sbbRR _ _ => true
  | .andRR _ _ => true
  | .orRR _ _ => true
  | .xorRR _ _ => true
  | .mulRR _ _ => true
  | .muluRR _ _ => true
  | .rrnRR _ _ => true
  | .rlnRR _ _ => true
  | .cmpRR _ _ => true
  | .testRR _ _ => true
  | .umuluRR _ _ => true
  | .bswapRR _ _ => true
  | .movRI _ _ => true
  | .addRI _ _ => true
  | .adcRI _ _ => true
  | .subRI _ _ => true
  | .sbbRI _ _ => true
  | .andRI _ _ => true
  | .orRI _ _ => true
  | .xorRI _ _ => true
  | .mulRI _ _ => true
  | .muluRI _ _ => true
  | .reservedClass3Op10 _ _ => true
  | .reservedClass3Op11 _ _ => true
  | .cmpRI _ _ => true
  | .testRI _ _ => true
  | .umuluRI _ _ => true
  | .reservedClass3Op15 _ _ => true
  | .bz _ _ => true
  | .bnz _ _ => true
  | .bs _ _ => true
  | .bns _ _ => true
  | .bc _ _ => true
  | .bnc _ _ => true
  | .bv _ _ => true
  | .bnv _ _ => true
  | .blt _ _ => true
  | .ble _ _ => true
  | .bgt _ _ => true
  | .bge _ _ => true
  | .bleu _ _ => true
  | .bgtu _ _ => true
  | .ba _ _ => true
  | .bl _ _ => true
  | .movCc _ _ _ => true
  | .movZ _ _ => true
  | .movNz _ _ => true
  | .movS _ _ => true
  | .movNs _ _ => true
  | .movC _ _ => true
  | .movNc _ _ => true
  | .movV _ _ => true
  | .movNv _ _ => true
  | .movLt _ _ => true
  | .movLe _ _ => true
  | .movGt _ _ => true
  | .movGe _ _ => true
  | .movLeu _ _ => true
  | .movGtu _ _ => true
  | .movA _ _ => true
  | .movL _ _ => true
  | .class6Word _ _ _ => true
  | .movX _ _ _ => true
  | .addX _ _ _ => true
  | .adcX _ _ _ => true
  | .subX _ _ _ => true
  | .sbbX _ _ _ => true
  | .andX _ _ _ => true
  | .orX _ _ _ => true
  | .xorX _ _ _ => true
  | .mulX _ _ _ => true
  | .muluX _ _ _ => true
  | .rrnX _ _ _ => true
  | .rlnX _ _ _ => true
  | .cmpX _ _ _ => true
  | .testX _ _ _ => true
  | .umuluX _ _ _ => true
  | .bswapX _ _ _ => true
  | .uld _ _ => true
  | .uldb _ _ => true
  | .uldbsx _ _ => true
  | .ust _ _ => true
  | .reservedClass7Flg5 _ _ => true
  | .ustb _ _ => true
  | .ldbsx _ _ _ => true
  | .class9Word _ _ _ => true
  | .movT _ _ _ _ => true
  | .addT _ _ _ _ => true
  | .adcT _ _ _ _ => true
  | .subT _ _ _ _ => true
  | .sbbT _ _ _ _ => true
  | .andT _ _ _ _ => true
  | .orT _ _ _ _ => true
  | .xorT _ _ _ _ => true
  | .mulT _ _ _ _ => true
  | .muluT _ _ _ _ => true
  | .rrnT _ _ _ _ => true
  | .rlnT _ _ _ _ => true
  | .cmpT _ _ _ _ => true
  | .testT _ _ _ _ => true
  | .umuluT _ _ _ _ => true
  | .bswapT _ _ _ _ => true
  | .ldb _ _ _ => true
  | .stb _ _ _ => true
  | .ld _ _ _ => true
  | .st _ _ _ => true
  | .inPort _ _ _ => true
  | .outPort _ _ _ => true

end Sys2Proof
end

