-- ==== Sys2Proof/Decode.lean ====
section
/-! DEFINITION. The decoder and, after it, the encoder (R80 to R94). `decodeWord` is what a fetched word is: every one of the 65536
words is some row of the table, the reserved ones rows of their own, whose meaning is a fault. A class 6 or class 9 word alone
is CLASS6_WORD or CLASS9_WORD, since its operation is not in the word (R92); `Instr.resolve` says which row it is under a
prefix, and `decodePair` reads the two words of such a row. A class 5 word is the row of its condition. -/

namespace Sys2Proof

/-- The ALU operation with a 4-bit number (R87). The last arm is number 15. -/
def AluOp.ofBits (b : BitVec 4) : AluOp :=
  match b.toNat with
  | 0 => .mov
  | 1 => .add
  | 2 => .adc
  | 3 => .sub
  | 4 => .sbb
  | 5 => .and
  | 6 => .or
  | 7 => .xor
  | 8 => .mul
  | 9 => .mulu
  | 10 => .rrn
  | 11 => .rln
  | 12 => .cmp
  | 13 => .test
  | 14 => .umulu
  | _ => .bswap

/-- The 4-bit number of an ALU operation (R87). -/
def AluOp.toBits (x : AluOp) : BitVec 4 :=
  match x with
  | .mov => 0x0
  | .add => 0x1
  | .adc => 0x2
  | .sub => 0x3
  | .sbb => 0x4
  | .and => 0x5
  | .or => 0x6
  | .xor => 0x7
  | .mul => 0x8
  | .mulu => 0x9
  | .rrn => 0xa
  | .rln => 0xb
  | .cmp => 0xc
  | .test => 0xd
  | .umulu => 0xe
  | .bswap => 0xf

/-- The condition with a 4-bit number (R88). The last arm is number 15. -/
def Cond.ofBits (b : BitVec 4) : Cond :=
  match b.toNat with
  | 0 => .z
  | 1 => .nz
  | 2 => .s
  | 3 => .ns
  | 4 => .c
  | 5 => .nc
  | 6 => .v
  | 7 => .nv
  | 8 => .lt
  | 9 => .le
  | 10 => .gt
  | 11 => .ge
  | 12 => .leu
  | 13 => .gtu
  | 14 => .a
  | _ => .l

/-- The 4-bit number of a condition (R88). -/
def Cond.toBits (x : Cond) : BitVec 4 :=
  match x with
  | .z => 0x0
  | .nz => 0x1
  | .s => 0x2
  | .ns => 0x3
  | .c => 0x4
  | .nc => 0x5
  | .v => 0x6
  | .nv => 0x7
  | .lt => 0x8
  | .le => 0x9
  | .gt => 0xa
  | .ge => 0xb
  | .leu => 0xc
  | .gtu => 0xd
  | .a => 0xe
  | .l => 0xf

/-- DIR = 0 is `toRx`, DIR = 1 is `toRl` (R260). -/
def Dir.ofBit (b : Bool) : Dir :=
  match b with
  | false => .toRx
  | true => .toRl

/-- The DIR bit of a direction (R260). -/
def Dir.toBit (d : Dir) : BitVec 1 :=
  match d with
  | .toRx => 0
  | .toRl => 1

/-- The ALU operation a class 6 or class 9 word takes from the immediate register: `immhi[3:0]` (R92). -/
def prefixOp (immhi : BitVec 12) : AluOp := AluOp.ofBits (immhi.extractLsb' 0 4)

/-- The condition a class 9 word takes from the immediate register: `immhi[7:4]` (R92). -/
def prefixCond (immhi : BitVec 12) : Cond := Cond.ofBits (immhi.extractLsb' 4 4)

/-- The class 2 instruction of an ALU operation (R87). -/
def Instr.class2 (op : AluOp) (d r : LowReg) : Instr :=
  match op with
  | .mov => .movRR d r
  | .add => .addRR d r
  | .adc => .adcRR d r
  | .sub => .subRR d r
  | .sbb => .sbbRR d r
  | .and => .andRR d r
  | .or => .orRR d r
  | .xor => .xorRR d r
  | .mul => .mulRR d r
  | .mulu => .muluRR d r
  | .rrn => .rrnRR d r
  | .rln => .rlnRR d r
  | .cmp => .cmpRR d r
  | .test => .testRR d r
  | .umulu => .umuluRR d r
  | .bswap => .bswapRR d r

/-- The class 3 row of an ALU operation; 10, 11 and 15 are reserved (R87, R218). -/
def Instr.class3 (op : AluOp) (d : LowReg) (lo : Imm4) : Instr :=
  match op with
  | .mov => .movRI d lo
  | .add => .addRI d lo
  | .adc => .adcRI d lo
  | .sub => .subRI d lo
  | .sbb => .sbbRI d lo
  | .and => .andRI d lo
  | .or => .orRI d lo
  | .xor => .xorRI d lo
  | .mul => .mulRI d lo
  | .mulu => .muluRI d lo
  | .rrn => .reservedClass3Op10 d lo
  | .rln => .reservedClass3Op11 d lo
  | .cmp => .cmpRI d lo
  | .test => .testRI d lo
  | .umulu => .umuluRI d lo
  | .bswap => .reservedClass3Op15 d lo

/-- The class 4 instruction of a branch number (R88). -/
def Instr.branch (cond : Cond) (r : LowReg) (lo : Imm4) : Instr :=
  match cond with
  | .z => .bz r lo
  | .nz => .bnz r lo
  | .s => .bs r lo
  | .ns => .bns r lo
  | .c => .bc r lo
  | .nc => .bnc r lo
  | .v => .bv r lo
  | .nv => .bnv r lo
  | .lt => .blt r lo
  | .le => .ble r lo
  | .gt => .bgt r lo
  | .ge => .bge r lo
  | .leu => .bleu r lo
  | .gtu => .bgtu r lo
  | .a => .ba r lo
  | .l => .bl r lo

/-- The class 5 instance of a condition (R248). -/
def Instr.condMove (cond : Cond) (d r : LowReg) : Instr :=
  match cond with
  | .z => .movZ d r
  | .nz => .movNz d r
  | .s => .movS d r
  | .ns => .movNs d r
  | .c => .movC d r
  | .nc => .movNc d r
  | .v => .movV d r
  | .nv => .movNv d r
  | .lt => .movLt d r
  | .le => .movLe d r
  | .gt => .movGt d r
  | .ge => .movGe d r
  | .leu => .movLeu d r
  | .gtu => .movGtu d r
  | .a => .movA d r
  | .l => .movL d r

/-- The class 6 row of an ALU operation (R261). -/
def Instr.class6 (op : AluOp) (dir : Dir) (rx : RegNum) (rl : LowReg) : Instr :=
  match op with
  | .mov => .movX dir rx rl
  | .add => .addX dir rx rl
  | .adc => .adcX dir rx rl
  | .sub => .subX dir rx rl
  | .sbb => .sbbX dir rx rl
  | .and => .andX dir rx rl
  | .or => .orX dir rx rl
  | .xor => .xorX dir rx rl
  | .mul => .mulX dir rx rl
  | .mulu => .muluX dir rx rl
  | .rrn => .rrnX dir rx rl
  | .rln => .rlnX dir rx rl
  | .cmp => .cmpX dir rx rl
  | .test => .testX dir rx rl
  | .umulu => .umuluX dir rx rl
  | .bswap => .bswapX dir rx rl

/-- The class 9 row of an ALU operation, with its condition (R266). -/
def Instr.class9 (op : AluOp) (cond : Cond) (d a b : LowReg) : Instr :=
  match op with
  | .mov => .movT cond d a b
  | .add => .addT cond d a b
  | .adc => .adcT cond d a b
  | .sub => .subT cond d a b
  | .sbb => .sbbT cond d a b
  | .and => .andT cond d a b
  | .or => .orT cond d a b
  | .xor => .xorT cond d a b
  | .mul => .mulT cond d a b
  | .mulu => .muluT cond d a b
  | .rrn => .rrnT cond d a b
  | .rln => .rlnT cond d a b
  | .cmp => .cmpT cond d a b
  | .test => .testT cond d a b
  | .umulu => .umuluT cond d a b
  | .bswap => .bswapT cond d a b

/-- Class 0 sub-class 4: operation 16 + `w[7:4]` on REG = `w[3:0]` (R86). The last arm is operation 31. -/
def decodeClass0Sub4 (w : Word) : Instr :=
  match (nibble1 w).toNat with
  | 0 => .asr (nibble0 w)
  | 1 => .lsr (nibble0 w)
  | 2 => .lsl (nibble0 w)
  | 3 => .rolc (nibble0 w)
  | 4 => .rorc (nibble0 w)
  | 5 => .rol (nibble0 w)
  | 6 => .ror (nibble0 w)
  | 7 => .cc
  | 8 => .sc
  | 9 => .cz
  | 10 => .sz
  | 11 => .cs
  | 12 => .ss
  | 13 => .stf (nibble0 w)
  | 14 => .rsf (nibble0 w)
  | _ => .reservedAlu31 (nibble0 w)

/-- Class 0 by its sub-class `w[11:8]` (R85, R94). The last arm is sub-classes 8 to 15. -/
def decodeClass0 (w : Word) : Instr :=
  match (nibble2 w).toNat with
  | 0 => if low8 w == 0x00 then .nop else .reservedNopNonzero (low8 w)
  | 1 => if low8 w == 0x00 then .ret else if low8 w == 0x01 then .iret else .reservedRetNonzero (low8 w)
  | 2 => .stix (nibble0 w)
  | 3 => .rsix (nibble0 w)
  | 4 => decodeClass0Sub4 w
  | 5 => .reservedSub5 (low8 w)
  | 6 => if (low8 w).getLsbD 0 then .sti else .cli
  | 7 => .sleep
  | _ => .reservedSub8To15 (low11 w)

/-- Class 7 by FLG = `w[2:0]`; `w[3]` is ignored, and so is `w[0]` of LDBSX and STB (R89, R93). -/
def decodeClass7 (w : Word) : Instr :=
  match (w.extractLsb' 0 3).toNat with
  | 0 => .uld (nibble2 w) (nibble1 w)
  | 1 => .uldb (nibble2 w) (nibble1 w)
  | 2 => .uldbsx (nibble2 w) (nibble1 w)
  | 3 => .uldbsx (nibble2 w) (nibble1 w)
  | 4 => .ust (nibble2 w) (nibble1 w)
  | 5 => .reservedClass7Flg5 (nibble2 w) (nibble1 w)
  | _ => .ustb (nibble2 w) (nibble1 w)

/-- The instruction a word alone is, by its class `w[15:12]` (R84). Total: every word is a row of the table. The last arm is
class 15. -/
def decodeWord (w : Word) : Instr :=
  match (nibble3 w).toNat with
  | 0 => decodeClass0 w
  | 1 => .imm (low12 w)
  | 2 => Instr.class2 (AluOp.ofBits (nibble2 w)) (nibble1 w) (nibble0 w)
  | 3 => Instr.class3 (AluOp.ofBits (nibble2 w)) (nibble1 w) (nibble0 w)
  | 4 => Instr.branch (Cond.ofBits (nibble2 w)) (nibble1 w) (nibble0 w)
  | 5 => Instr.condMove (Cond.ofBits (nibble2 w)) (nibble1 w) (nibble0 w)
  | 6 => .class6Word (Dir.ofBit (dirBit w)) (rxField w) (nibble0 w)
  | 7 => decodeClass7 w
  | 8 => .ldbsx (nibble2 w) (nibble1 w) (nibble0 w)
  | 9 => .class9Word (nibble2 w) (nibble1 w) (nibble0 w)
  | 10 => .ldb (nibble2 w) (nibble1 w) (nibble0 w)
  | 11 => .stb (nibble2 w) (nibble1 w) (nibble0 w)
  | 12 => .ld (nibble2 w) (nibble1 w) (nibble0 w)
  | 13 => .st (nibble2 w) (nibble1 w) (nibble0 w)
  | 14 => .inPort (nibble2 w) (nibble1 w) (nibble0 w)
  | _ => .outPort (nibble2 w) (nibble1 w) (nibble0 w)

/-- The row an instruction is when the immediate register holds `immhi` (R92): a class 6 word is the operation `immhi[3:0]`, a
class 9 word that operation under the condition `immhi[7:4]`; every other instruction is the row it is alone. -/
def Instr.resolve (immhi : BitVec 12) (i : Instr) : Instr :=
  match i with
  | .class6Word dir rx rl => Instr.class6 (prefixOp immhi) dir rx rl
  | .class9Word d a b => Instr.class9 (prefixOp immhi) (prefixCond immhi) d a b
  | other => other

/-- The row that two words are together: a class 1 word and then a class 6 or class 9 word (R92); none for any other two. -/
def decodePair (p w : Word) : Option Instr :=
  if nibble3 p == 0x1 && (nibble3 w == 0x6 || nibble3 w == 0x9) then
    some ((decodeWord w).resolve (low12 p))
  else
    none

/-- The row that the words of one row of the table are: one word, or the two of a pair. -/
def decodeWords (ws : List Word) : Option Instr :=
  match ws with
  | [w] => some (decodeWord w)
  | [p, w] => decodePair p w
  | _ => none

/-- Why bytes are no instruction. -/
inductive DecodeError where
  /-- fewer than the two bytes every instruction has (R80) -/
  | truncated
  deriving DecidableEq, Repr

/-- The instruction at the head of a list of bytes, the first at an even address, and the bytes after it, in the byte order
`order` (R51, R80). -/
def decode (order : Machine.Endian) (bytes : List Byte) : Except DecodeError (Instr × List Byte) :=
  match bytes with
  | e :: o :: rest => .ok (decodeWord (joinBytes order e o), rest)
  | _ => .error .truncated

/-- The two bytes of a word in the order of their addresses (R51). -/
def wordBytes (order : Machine.Endian) (w : Word) : List Byte := [evenByte order w, oddByte order w]

/-- The host's question: the instruction read from an instruction whose bits are `w`, the first word in bits 15:0 and a second in
bits 31:16. A row of the table has 16 bits; of 17 bits or more, a class 1 word before a class 6 or class 9 word is the row the
two are together. The bytes are laid out in the spec's byte order. -/
def decodeTableWord (nbits w : Nat) : Option Instr :=
  let first : Word := BitVec.ofNat 16 w
  let second : Word := BitVec.ofNat 16 (w / 65536)
  let order := Machine.Params.spec.endian
  match (if nbits ≤ 16 then none else decodePair first second) with
  | some i => some i
  | none =>
    match decode order (wordBytes order first ++ wordBytes order second) with
    | .ok (i, _) => some i
    | .error _ => none

/-- The words of an instruction, written from the formats of R82 with every ignored bit 0 (R93) and, for the rows of two words,
the canonical prefix (R261, R265). -/
def encode (i : Instr) : List Word :=
  match i with
  | .nop => [word8 0x00 0x00]
  | .ret => [word8 0x01 0x00]
  | .iret => [word8 0x01 0x01]
  | .stix r => [word4 0x0 0x2 0x0 r]
  | .rsix r => [word4 0x0 0x3 0x0 r]
  | .asr r => [word4 0x0 0x4 0x0 r]
  | .lsr r => [word4 0x0 0x4 0x1 r]
  | .lsl r => [word4 0x0 0x4 0x2 r]
  | .rolc r => [word4 0x0 0x4 0x3 r]
  | .rorc r => [word4 0x0 0x4 0x4 r]
  | .rol r => [word4 0x0 0x4 0x5 r]
  | .ror r => [word4 0x0 0x4 0x6 r]
  | .cc => [word4 0x0 0x4 0x7 0x0]
  | .sc => [word4 0x0 0x4 0x8 0x0]
  | .cz => [word4 0x0 0x4 0x9 0x0]
  | .sz => [word4 0x0 0x4 0xa 0x0]
  | .cs => [word4 0x0 0x4 0xb 0x0]
  | .ss => [word4 0x0 0x4 0xc 0x0]
  | .stf r => [word4 0x0 0x4 0xd r]
  | .rsf r => [word4 0x0 0x4 0xe r]
  | .reservedAlu31 r => [word4 0x0 0x4 0xf r]
  | .reservedSub5 b => [word8 0x05 b]
  | .cli => [word8 0x06 0x00]
  | .sti => [word8 0x06 0x01]
  | .sleep => [word8 0x07 0x00]
  | .reservedSub8To15 b => [0b00001#5 ++ b]
  | .reservedNopNonzero b => [word8 0x00 b]
  | .reservedRetNonzero b => [word8 0x01 b]
  | .imm h => [wordImm h]
  | .movRR d r => [word4 0x2 0x0 d r]
  | .addRR d r => [word4 0x2 0x1 d r]
  | .adcRR d r => [word4 0x2 0x2 d r]
  | .subRR d r => [word4 0x2 0x3 d r]
  | .sbbRR d r => [word4 0x2 0x4 d r]
  | .andRR d r => [word4 0x2 0x5 d r]
  | .orRR d r => [word4 0x2 0x6 d r]
  | .xorRR d r => [word4 0x2 0x7 d r]
  | .mulRR d r => [word4 0x2 0x8 d r]
  | .muluRR d r => [word4 0x2 0x9 d r]
  | .rrnRR d r => [word4 0x2 0xa d r]
  | .rlnRR d r => [word4 0x2 0xb d r]
  | .cmpRR d r => [word4 0x2 0xc d r]
  | .testRR d r => [word4 0x2 0xd d r]
  | .umuluRR d r => [word4 0x2 0xe d r]
  | .bswapRR d r => [word4 0x2 0xf d r]
  | .movRI d lo => [word4 0x3 0x0 d lo]
  | .addRI d lo => [word4 0x3 0x1 d lo]
  | .adcRI d lo => [word4 0x3 0x2 d lo]
  | .subRI d lo => [word4 0x3 0x3 d lo]
  | .sbbRI d lo => [word4 0x3 0x4 d lo]
  | .andRI d lo => [word4 0x3 0x5 d lo]
  | .orRI d lo => [word4 0x3 0x6 d lo]
  | .xorRI d lo => [word4 0x3 0x7 d lo]
  | .mulRI d lo => [word4 0x3 0x8 d lo]
  | .muluRI d lo => [word4 0x3 0x9 d lo]
  | .reservedClass3Op10 d lo => [word4 0x3 0xa d lo]
  | .reservedClass3Op11 d lo => [word4 0x3 0xb d lo]
  | .cmpRI d lo => [word4 0x3 0xc d lo]
  | .testRI d lo => [word4 0x3 0xd d lo]
  | .umuluRI d lo => [word4 0x3 0xe d lo]
  | .reservedClass3Op15 d lo => [word4 0x3 0xf d lo]
  | .bz r lo => [word4 0x4 0x0 r lo]
  | .bnz r lo => [word4 0x4 0x1 r lo]
  | .bs r lo => [word4 0x4 0x2 r lo]
  | .bns r lo => [word4 0x4 0x3 r lo]
  | .bc r lo => [word4 0x4 0x4 r lo]
  | .bnc r lo => [word4 0x4 0x5 r lo]
  | .bv r lo => [word4 0x4 0x6 r lo]
  | .bnv r lo => [word4 0x4 0x7 r lo]
  | .blt r lo => [word4 0x4 0x8 r lo]
  | .ble r lo => [word4 0x4 0x9 r lo]
  | .bgt r lo => [word4 0x4 0xa r lo]
  | .bge r lo => [word4 0x4 0xb r lo]
  | .bleu r lo => [word4 0x4 0xc r lo]
  | .bgtu r lo => [word4 0x4 0xd r lo]
  | .ba r lo => [word4 0x4 0xe r lo]
  | .bl r lo => [word4 0x4 0xf r lo]
  | .movCc cond d r => [word4 0x5 cond.toBits d r]
  | .movZ d r => [word4 0x5 0x0 d r]
  | .movNz d r => [word4 0x5 0x1 d r]
  | .movS d r => [word4 0x5 0x2 d r]
  | .movNs d r => [word4 0x5 0x3 d r]
  | .movC d r => [word4 0x5 0x4 d r]
  | .movNc d r => [word4 0x5 0x5 d r]
  | .movV d r => [word4 0x5 0x6 d r]
  | .movNv d r => [word4 0x5 0x7 d r]
  | .movLt d r => [word4 0x5 0x8 d r]
  | .movLe d r => [word4 0x5 0x9 d r]
  | .movGt d r => [word4 0x5 0xa d r]
  | .movGe d r => [word4 0x5 0xb d r]
  | .movLeu d r => [word4 0x5 0xc d r]
  | .movGtu d r => [word4 0x5 0xd d r]
  | .movA d r => [word4 0x5 0xe d r]
  | .movL d r => [word4 0x5 0xf d r]
  | .class6Word dir rx rl => [wordExt dir.toBit rx rl]
  | .movX dir rx rl => [word4 0x1 0x0 0x0 0x0, wordExt dir.toBit rx rl]
  | .addX dir rx rl => [word4 0x1 0x0 0x0 0x1, wordExt dir.toBit rx rl]
  | .adcX dir rx rl => [word4 0x1 0x0 0x0 0x2, wordExt dir.toBit rx rl]
  | .subX dir rx rl => [word4 0x1 0x0 0x0 0x3, wordExt dir.toBit rx rl]
  | .sbbX dir rx rl => [word4 0x1 0x0 0x0 0x4, wordExt dir.toBit rx rl]
  | .andX dir rx rl => [word4 0x1 0x0 0x0 0x5, wordExt dir.toBit rx rl]
  | .orX dir rx rl => [word4 0x1 0x0 0x0 0x6, wordExt dir.toBit rx rl]
  | .xorX dir rx rl => [word4 0x1 0x0 0x0 0x7, wordExt dir.toBit rx rl]
  | .mulX dir rx rl => [word4 0x1 0x0 0x0 0x8, wordExt dir.toBit rx rl]
  | .muluX dir rx rl => [word4 0x1 0x0 0x0 0x9, wordExt dir.toBit rx rl]
  | .rrnX dir rx rl => [word4 0x1 0x0 0x0 0xa, wordExt dir.toBit rx rl]
  | .rlnX dir rx rl => [word4 0x1 0x0 0x0 0xb, wordExt dir.toBit rx rl]
  | .cmpX dir rx rl => [word4 0x1 0x0 0x0 0xc, wordExt dir.toBit rx rl]
  | .testX dir rx rl => [word4 0x1 0x0 0x0 0xd, wordExt dir.toBit rx rl]
  | .umuluX dir rx rl => [word4 0x1 0x0 0x0 0xe, wordExt dir.toBit rx rl]
  | .bswapX dir rx rl => [word4 0x1 0x0 0x0 0xf, wordExt dir.toBit rx rl]
  | .uld idx reg => [word4 0x7 idx reg 0x0]
  | .uldb idx reg => [word4 0x7 idx reg 0x1]
  | .uldbsx idx reg => [word4 0x7 idx reg 0x2]
  | .ust idx reg => [word4 0x7 idx reg 0x4]
  | .reservedClass7Flg5 idx reg => [word4 0x7 idx reg 0x5]
  | .ustb idx reg => [word4 0x7 idx reg 0x6]
  | .ldbsx idx reg lo => [word4 0x8 idx reg lo]
  | .class9Word d a b => [word4 0x9 d a b]
  | .movT cond d a b => [word4 0x1 0x0 cond.toBits 0x0, word4 0x9 d a b]
  | .addT cond d a b => [word4 0x1 0x0 cond.toBits 0x1, word4 0x9 d a b]
  | .adcT cond d a b => [word4 0x1 0x0 cond.toBits 0x2, word4 0x9 d a b]
  | .subT cond d a b => [word4 0x1 0x0 cond.toBits 0x3, word4 0x9 d a b]
  | .sbbT cond d a b => [word4 0x1 0x0 cond.toBits 0x4, word4 0x9 d a b]
  | .andT cond d a b => [word4 0x1 0x0 cond.toBits 0x5, word4 0x9 d a b]
  | .orT cond d a b => [word4 0x1 0x0 cond.toBits 0x6, word4 0x9 d a b]
  | .xorT cond d a b => [word4 0x1 0x0 cond.toBits 0x7, word4 0x9 d a b]
  | .mulT cond d a b => [word4 0x1 0x0 cond.toBits 0x8, word4 0x9 d a b]
  | .muluT cond d a b => [word4 0x1 0x0 cond.toBits 0x9, word4 0x9 d a b]
  | .rrnT cond d a b => [word4 0x1 0x0 cond.toBits 0xa, word4 0x9 d a b]
  | .rlnT cond d a b => [word4 0x1 0x0 cond.toBits 0xb, word4 0x9 d a b]
  | .cmpT cond d a b => [word4 0x1 0x0 cond.toBits 0xc, word4 0x9 d a b]
  | .testT cond d a b => [word4 0x1 0x0 cond.toBits 0xd, word4 0x9 d a b]
  | .umuluT cond d a b => [word4 0x1 0x0 cond.toBits 0xe, word4 0x9 d a b]
  | .bswapT cond d a b => [word4 0x1 0x0 cond.toBits 0xf, word4 0x9 d a b]
  | .ldb idx reg lo => [word4 0xa idx reg lo]
  | .stb idx reg lo => [word4 0xb idx reg lo]
  | .ld idx reg lo => [word4 0xc idx reg lo]
  | .st idx reg lo => [word4 0xd idx reg lo]
  | .inPort rp rv lo => [word4 0xe rp rv lo]
  | .outPort rp rv lo => [word4 0xf rp rv lo]

/-- The row the decoder names for the words of an instruction: an instance of class 5 for MOV.cc of class 5, whose words are the
same (R248), and the instruction itself for every other row. -/
def Instr.canonical (i : Instr) : Instr :=
  match i with
  | .movCc cond d r => Instr.condMove cond d r
  | other => other

end Sys2Proof
end

