-- ==== Sys2Proof/Machine/State.lean ====
section
/-! DEFINITION. The whole state of the machine as plain data (R20 to R40), the reasons a step can stop, and the state after
reset. INVENTORY.md lists every field with its rule and its reset value. -/

namespace Sys2Proof.Machine

/-- The four flags (R28). -/
structure Flags where
  z : Bool
  c : Bool
  s : Bool
  v : Bool
  deriving DecidableEq, Repr

/-- A memory: the bytes that differ from what an unlisted address reads as, by rising address (`Memory.wf`). -/
abbrev Memory := List Host.Cell

/-- The addresses `first` to `last`, both included. -/
structure AddrRange where
  first : Word
  last : Word
  deriving DecidableEq, Repr

/-- What the spec leaves to the platform and lets a model take as a parameter (R60, R66, R312, R325). No step changes it. -/
structure Platform where
  /-- INT_VECTOR where the platform gives it; `Config.intVector` stands for it otherwise (R325, D26) -/
  intVector : Option Word
  /-- the main-memory addresses the platform does not admit (R60, U15) -/
  absentMem : List AddrRange
  /-- the code-memory addresses the platform does not admit, where UNIFIED_MEM is false (R60, U15) -/
  absentCode : List AddrRange
  /-- the ports the platform does not admit (R312, U15) -/
  absentPorts : List AddrRange
  /-- the addresses that hold the program text, into which a store is refused (R66, U12) -/
  text : List AddrRange
  deriving DecidableEq, Repr

/-- What the platform sees of a port access, in program order (R59, R310, R311). -/
inductive PortEvent where
  /-- a read of the port gave the datum -/
  | read (port datum : Word)
  /-- the value was written to the port -/
  | write (port value : Word)
  deriving DecidableEq, Repr

/-- The state of the machine (R40), and after it what stands for the world outside (R36, R59, R60). -/
structure State where
  /-- x[0] to x[127] (R20, R21); LR and ILR are two of them, by LR_INDEX and ILR_INDEX (R32) -/
  regs : Vector Word 128
  /-- the program counter (R25) -/
  pc : Word
  /-- Z, C, S, V (R28) -/
  flags : Flags
  /-- the stored bits of the immediate register (R30) -/
  immhi : BitVec 12
  /-- the interrupt enable flag IE (R34) -/
  ie : Bool
  /-- the sleep state (R35) -/
  sleeping : Bool
  /-- the interrupt shadow register of the immediate register (R33) -/
  sImmhi : BitVec 12
  /-- the interrupt shadow register of the flags, layout Z C S V (R33) -/
  sFlags : BitVec 4
  /-- main memory M (R38, R50) -/
  mem : Memory
  /-- the code memory, which only the fetch reads, and only where UNIFIED_MEM is false (R6, R66, D2, log entry 21) -/
  code : Memory
  /-- the upper banks U, by location (R38, R58) -/
  upper : Memory
  /-- the levels of irq at the samples to come; beyond its end the input is free (R36, log entry 7) -/
  irqIn : List Bool
  /-- the model's own: how many samples of irq have been taken -/
  irqTaken : Nat
  /-- the data of the port reads to come; beyond its end the input is free (R59, log entry 8) -/
  portIn : List Word
  /-- the model's own: how many port reads have been made -/
  portTaken : Nat
  /-- the port accesses made so far, the oldest first (R59, R64) -/
  events : List PortEvent
  /-- the platform's parameters -/
  platform : Platform
  /-- the parameters that have a default (R6) -/
  params : Params
  deriving DecidableEq, Repr

/-- The machine stops: the spec gives what was to be done no meaning, `raise Unspecified(what)` (R321). A fault ends the run, so
no claim about what the hardware does after it can be proved: safe. -/
inductive Fault where
  /-- raised by the fetch at an odd pc (R27, R55, U13); safe -/
  | misalignedFetch
  /-- raised by LD, ST, ULD and UST at an odd effective address (R54, U13); safe -/
  | misalignedAccess
  /-- raised by the reserved rows of the opcode table (R94, U1 to U5, U7, U9); safe -/
  | reservedEncoding
  deriving DecidableEq, Repr

/-- The step has no meaning in this model or on this platform. -/
inductive Refusal where
  /-- an instruction without a meaning; no arm of exec raises it; safe -/
  | notModelled (mnemonic : String)
  /-- raised by a fetch, load or store at an address of M or of the code memory that the platform record says does not exist (R60,
  U15); safe -/
  | memoryNotAdmitted (address : Word)
  /-- raised by IN and OUT at a port that the platform record says does not exist (R312, U15); safe -/
  | portNotAdmitted (port : Word)
  /-- raised by ST and STB into the addresses the platform record names as program text (R66, R292, U12); safe -/
  | storeToProgramText (address : Word)
  deriving DecidableEq, Repr

/-- The machine right after reset under the parameters `p` (R40, R360): pc at RESET_VECTOR, no immediate, interrupts off, awake. The
spec leaves x[1] to x[127], the flags and the shadow registers unspecified: zero here (log entry 1). M, U and the code memory list
nothing (log entry 2); the platform record is empty and no input is supplied (log entries 5, 7, 8, 9, 10). -/
def State.resetWith (p : Params) : State where
  regs := Vector.replicate 128 0
  pc := p.resetVector
  flags := { z := false, c := false, s := false, v := false }
  immhi := 0
  ie := false
  sleeping := false
  sImmhi := 0
  sFlags := 0
  mem := []
  code := []
  upper := []
  irqIn := []
  irqTaken := 0
  portIn := []
  portTaken := 0
  events := []
  platform := { intVector := none, absentMem := [], absentCode := [], absentPorts := [], text := [] }
  params := p

/-- The machine right after reset under the spec's parameters (R6, R40). -/
def State.reset : State := State.resetWith Params.spec

end Sys2Proof.Machine
end

