-- ==== Sys2Proof/Machine/Flags.lean ====
section
/-! DEFINITION. The flags packed in a register (R28), the sixteen conditions (R230), the sixteen ALU operations with their flags
(R170 to R186) and the seven one-bit shifts and rotates (R126 to R133). -/

namespace Sys2Proof.Machine

/-- The flags as a register holds them: Z, C, S, V in bits 3, 2, 1, 0 (R28). -/
def Flags.pack (f : Flags) : BitVec 4 :=
  BitVec.ofBool f.z ++ BitVec.ofBool f.c ++ BitVec.ofBool f.s ++ BitVec.ofBool f.v

/-- The flags that four bits of a register stand for (R28). -/
def Flags.unpack (b : BitVec 4) : Flags where
  z := b.getLsbD 3
  c := b.getLsbD 2
  s := b.getLsbD 1
  v := b.getLsbD 0

end Sys2Proof.Machine

namespace Sys2Proof

open Machine in
/-- `cond(c)` over the flags (R230). -/
def Cond.holds (cond : Cond) (f : Flags) : Bool :=
  match cond with
  | .z => f.z
  | .nz => !f.z
  | .s => f.s
  | .ns => !f.s
  | .c => f.c
  | .nc => !f.c
  | .v => f.v
  | .nv => !f.v
  | .lt => f.s != f.v
  | .le => f.z || f.s != f.v
  | .gt => !f.z && f.s == f.v
  | .ge => f.s == f.v
  | .leu => f.c || f.z
  | .gtu => !f.c && !f.z
  | .a => true
  | .l => true

end Sys2Proof

namespace Sys2Proof.Machine

/-- The row of an operation in FLAG_RULES (R170). -/
def FlagRules.row (rules : FlagRules) (op : AluOp) : FlagRule :=
  match op with
  | .mov => rules.mov
  | .add => rules.add
  | .adc => rules.adc
  | .sub => rules.sub
  | .sbb => rules.sbb
  | .and => rules.and
  | .or => rules.or
  | .xor => rules.xor
  | .mul => rules.mul
  | .mulu => rules.mulu
  | .rrn => rules.rrn
  | .rln => rules.rln
  | .cmp => rules.cmp
  | .test => rules.test
  | .umulu => rules.umulu
  | .bswap => rules.bswap

/-- Whether the result is written to the destination (R170): not by cmp and test. -/
def resultWritten (op : AluOp) : Bool :=
  match op with
  | .mov => true
  | .add => true
  | .adc => true
  | .sub => true
  | .sbb => true
  | .and => true
  | .or => true
  | .xor => true
  | .mul => true
  | .mulu => true
  | .rrn => true
  | .rln => true
  | .cmp => false
  | .test => false
  | .umulu => true
  | .bswap => true

/-- The carry an operation takes in: C for adc and sbb, none for the others (R173, R175). -/
def carryIn (op : AluOp) (c : Bool) : Nat :=
  match op with
  | .adc => c.toNat
  | .sbb => c.toNat
  | .mov => 0
  | .add => 0
  | .sub => 0
  | .and => 0
  | .or => 0
  | .xor => 0
  | .mul => 0
  | .mulu => 0
  | .rrn => 0
  | .rln => 0
  | .cmp => 0
  | .test => 0
  | .umulu => 0
  | .bswap => 0

/-- The exact product of mulu (R180) in a reading of its B operand (U20). -/
def muluProduct (reading : MuluReading) (a b : Word) : Int :=
  match reading with
  | .signedSigned => a.toInt * b.toInt
  | .signedUnsigned => a.toInt * b.toNat

/-- The 16-bit result of an ALU operation (R171 to R186): computed exactly and then cut to 16 bits. -/
def aluResult (reading : MuluReading) (op : AluOp) (a b : Word) (c : Bool) : Word :=
  match op with
  | .mov => b
  | .add => BitVec.ofNat 16 (a.toNat + b.toNat)
  | .adc => BitVec.ofNat 16 (a.toNat + b.toNat + carryIn .adc c)
  | .sub => BitVec.ofInt 16 (a.toNat - b.toNat)
  | .sbb => BitVec.ofInt 16 (a.toNat - b.toNat - carryIn .sbb c)
  | .and => a &&& b
  | .or => a ||| b
  | .xor => a ^^^ b
  | .mul => BitVec.ofNat 16 (a.toNat * b.toNat)
  | .mulu => BitVec.ofInt 16 (muluProduct reading a b / 65536)
  | .rrn => b.extractLsb' 0 4 ++ b.extractLsb' 4 12
  | .rln => b.extractLsb' 0 12 ++ b.extractLsb' 12 4
  | .cmp => BitVec.ofInt 16 (a.toNat - b.toNat)
  | .test => a &&& b
  | .umulu => BitVec.ofNat 16 (a.toNat * b.toNat / 65536)
  | .bswap => b.extractLsb' 0 8 ++ b.extractLsb' 8 8

/-- C after an operation: the carry out of bit 15 of a sum, or the borrow of a difference (R172 to R175). -/
def carryFlag (rule : ArithFlag) (a b : Word) (cin : Nat) (old : Bool) : Bool :=
  match rule with
  | .keep => old
  | .clear => false
  | .ofSum => decide (65536 ≤ a.toNat + b.toNat + cin)
  | .ofDifference => decide (a.toNat < b.toNat + cin)

/-- A signed result that 16 bits cannot hold (R172 to R175). -/
def outOfRange (t : Int) : Bool := decide (t < -32768) || decide (32767 < t)

/-- V after an operation: the signed sum or difference is outside -32768 to 32767 (R172 to R175). -/
def overflowFlag (rule : ArithFlag) (a b : Word) (cin : Nat) (old : Bool) : Bool :=
  match rule with
  | .keep => old
  | .clear => false
  | .ofSum => outOfRange (a.toInt + b.toInt + cin)
  | .ofDifference => outOfRange (a.toInt - b.toInt - cin)

/-- The flags after an ALU operation with the result `r`, by its row of FLAG_RULES (R170). -/
def aluFlags (rule : FlagRule) (op : AluOp) (a b r : Word) (f : Flags) : Flags where
  z := if rule.z then r == 0 else f.z
  c := carryFlag rule.c a b (carryIn op f.c) f.c
  s := if rule.s then r.msb else f.s
  v := overflowFlag rule.v a b (carryIn op f.c) f.v

/-- What an ALU operation yields (R170). -/
structure AluOut where
  result : Word
  written : Bool
  flags : Flags
  deriving DecidableEq, Repr

/-- `alu(op, a, b)` over the flags, under the parameters (R170 to R186). -/
def alu (p : Params) (op : AluOp) (a b : Word) (f : Flags) : AluOut where
  result := aluResult p.muluReading op a b f.c
  written := resultWritten op
  flags := aluFlags (p.flagRules.row op) op a b (aluResult p.muluReading op a b f.c) f

/-- The result of a one-bit shift or rotate of `a` with the carry `c` (R127 to R133). -/
def shiftResult (op : ShiftOp) (a : Word) (c : Bool) : Word :=
  match op with
  | .asr => BitVec.ofBool a.msb ++ a.extractLsb' 1 15
  | .lsr => 0#1 ++ a.extractLsb' 1 15
  | .lsl => a.extractLsb' 0 15 ++ 0#1
  | .rolc => a.extractLsb' 0 15 ++ BitVec.ofBool c
  | .rorc => BitVec.ofBool c ++ a.extractLsb' 1 15
  | .rol => a.extractLsb' 0 15 ++ BitVec.ofBool a.msb
  | .ror => BitVec.ofBool (a.getLsbD 0) ++ a.extractLsb' 1 15

/-- The bit that leaves the register (R126 to R133). -/
def shiftOut (op : ShiftOp) (a : Word) : Bool :=
  match op with
  | .asr => a.getLsbD 0
  | .lsr => a.getLsbD 0
  | .lsl => a.msb
  | .rolc => a.msb
  | .rorc => a.getLsbD 0
  | .rol => a.msb
  | .ror => a.getLsbD 0

/-- The flags after a one-bit shift or rotate with the result `r`: Z, C and S where the rule writes them, with V kept (R126). -/
def shiftFlags (rule : ShiftFlagRule) (op : ShiftOp) (a r : Word) (f : Flags) : Flags where
  z := if rule.z then r == 0 else f.z
  c := if rule.c then shiftOut op a else f.c
  s := if rule.s then r.msb else f.s
  v := f.v

end Sys2Proof.Machine
end

