-- ==== Sys2Proof/Machine/Ops.lean ====
section
/-! DEFINITION. The named operations over registers, memory, the upper banks, the ports and the interrupt state. Every meaning
is made of them. -/

namespace Sys2Proof.Machine

/-- The answer of an operation: a value, a fault or a refusal. -/
abbrev Res (α : Type) := Host.Outcome α Fault Refusal

/-- Go on with the value, or stop as the operation stopped. -/
def andThen {α β : Type} (r : Res α) (f : α → Res β) : Res β :=
  match r with
  | .next a => f a
  | .fault e => .fault e
  | .refused e => .refused e

/-! ### Memory -/

/-- What a byte of M or U that nothing has written reads as. DESIGN CHOICE, unsafe (log entry 2): the spec says only that the
platform loads it (R40). -/
def Memory.unlisted : Byte := 0

/-- The byte at an address. -/
def Memory.read (m : Memory) (a : Nat) : Byte :=
  match m with
  | [] => Memory.unlisted
  | (k, b) :: t => if k = a then b else Memory.read t a

/-- The memory with the byte at one address set, in canonical form again. -/
def Memory.write (m : Memory) (a : Nat) (b : Byte) : Memory :=
  match m with
  | [] => if b = Memory.unlisted then [] else [(a, b)]
  | (k, c) :: t =>
    if a < k then (if b = Memory.unlisted then (k, c) :: t else (a, b) :: (k, c) :: t)
    else if a = k then (if b = Memory.unlisted then t else (a, b) :: t)
    else (k, c) :: Memory.write t a b

/-- The canonical form: addresses strictly rising, and no entry that an unlisted address would read as. -/
def Memory.wf (m : Memory) : Bool :=
  match m with
  | [] => true
  | (k, b) :: t => b != Memory.unlisted && t.all (fun e => decide (k < e.1)) && Memory.wf t

/-- The range holds the address. -/
def AddrRange.holds (r : AddrRange) (a : Word) : Bool := decide (r.first.toNat ≤ a.toNat) && decide (a.toNat ≤ r.last.toNat)

/-- The platform admits the main-memory address (R60, U15). -/
def State.admitsMem (s : State) (a : Word) : Bool := !s.platform.absentMem.any (·.holds a)

/-- The memory that the fetch reads: M, or the code memory where UNIFIED_MEM is false (R66, D2). -/
def State.codeMem (s : State) : Memory := if s.params.unifiedMem then s.mem else s.code

/-- The platform admits a fetch at the address (R60, U15). -/
def State.admitsFetch (s : State) (a : Word) : Bool :=
  if s.params.unifiedMem then s.admitsMem a else !s.platform.absentCode.any (·.holds a)

/-- The platform admits the port (R312, U15). -/
def State.admitsPort (s : State) (p : Word) : Bool := !s.platform.absentPorts.any (·.holds p)

/-- The address is program text (R66, U12). -/
def State.isText (s : State) (a : Word) : Bool := s.platform.text.any (·.holds a)

/-- `MemRead(addr, 1)` (R52). -/
def memReadByte (s : State) (a : Word) : Res Byte :=
  if s.admitsMem a then .next (s.mem.read a.toNat) else .refused (.memoryNotAdmitted a)

/-- `MemRead(addr, 2)` (R51, R52, R54). -/
def memReadWord (s : State) (a : Word) : Res Word :=
  if a.getLsbD 0 then .fault .misalignedAccess
  else andThen (memReadByte s a) fun e => andThen (memReadByte s (a + 1)) fun o => .next (joinBytes s.params.endian e o)

/-- The platform lets a byte be stored at the address (R60, R66, R292). -/
def storeAllowed (s : State) (a : Word) : Res Unit :=
  if !s.admitsMem a then .refused (.memoryNotAdmitted a)
  else if s.isText a then .refused (.storeToProgramText a)
  else .next ()

/-- `MemWrite(addr, 1, v)` (R53). -/
def memWriteByte (s : State) (a : Word) (b : Byte) : Res State :=
  andThen (storeAllowed s a) fun _ => .next { s with mem := s.mem.write a.toNat b }

/-- `MemWrite(addr, 2, v)` (R51, R53, R54). -/
def memWriteWord (s : State) (a : Word) (v : Word) : Res State :=
  if a.getLsbD 0 then .fault .misalignedAccess
  else andThen (storeAllowed s a) fun _ => andThen (storeAllowed s (a + 1)) fun _ =>
    .next { s with mem := (s.mem.write a.toNat (evenByte s.params.endian v)).write (a + 1).toNat (oddByte s.params.endian v) }

/-! ### The upper banks -/

/-- The location in U of a byte address: UPPER_MAP names a word of U, and bit 0 of the address the byte in it (R51, R58, log
entry 6). -/
def upperLoc (ea : Word) : Nat := 2 * Config.upperMap (ea.extractLsb' 1 15) + (ea.getLsbD 0).toNat

/-- `UpperRead(ea, 1)` (R58). -/
def upperReadByte (s : State) (ea : Word) : Byte := s.upper.read (upperLoc ea)

/-- `UpperRead(ea, 2)` (R58, R54). -/
def upperReadWord (s : State) (ea : Word) : Res Word :=
  if ea.getLsbD 0 then .fault .misalignedAccess
  else .next (joinBytes s.params.endian (upperReadByte s ea) (upperReadByte s (ea + 1)))

/-- `UpperWrite(ea, 1, v)` (R58). -/
def upperWriteByte (s : State) (ea : Word) (b : Byte) : State := { s with upper := s.upper.write (upperLoc ea) b }

/-- `UpperWrite(ea, 2, v)` (R58, R54). -/
def upperWriteWord (s : State) (ea : Word) (v : Word) : Res State :=
  if ea.getLsbD 0 then .fault .misalignedAccess
  else .next (upperWriteByte (upperWriteByte s ea (evenByte s.params.endian v)) (ea + 1) (oddByte s.params.endian v))

/-- The register after a byte load without sign: zero-extended (R56, R289, D20), or with its upper byte kept in the other reading
(U6). -/
def byteToReg (fill : ByteFill) (old : Word) (b : Byte) : Word :=
  match fill with
  | .zero => b.zeroExtend 16
  | .keep => old.extractLsb' 8 8 ++ b

/-! ### Registers, flags, pc -/

/-- A write to the register is discarded, and it reads zero: register 0 under R0_ZERO (R9, R21). -/
def State.discards (s : State) (i : RegNum) : Bool := s.params.r0Zero && i == 0

/-- `x[i]` (R9, R21). -/
def State.readReg (s : State) (i : RegNum) : Word :=
  if s.discards i then 0 else s.regs[i.toNat]'i.isLt

/-- `x[i] <- v` (R9, R21). -/
def State.writeReg (s : State) (i : RegNum) (v : Word) : State :=
  { s with regs := if s.discards i then s.regs else s.regs.set i.toNat v i.isLt }

/-- The address of the next instruction in program order (R26). -/
def State.nextPc (s : State) : Word := s.pc + pcStep

/-- The end of an instruction that does not transfer control: `clear_imm; pc <- (pc + 2)[15:0]` (R26, R31). -/
def State.advance (s : State) : State := { s with pc := s.nextPc, immhi := 0 }

/-- The end of one that does: `pc <- t; clear_imm` (R122, R231). -/
def State.jump (s : State) (t : Word) : State := { s with pc := t, immhi := 0 }

/-- A branch: to the target if the condition holds, else on (R231). -/
def State.branch (s : State) (taken : Bool) (target : Word) : State := if taken then s.jump target else s.advance

/-- BL: LR gets the address after the branch, and the branch is taken (R247). -/
def State.branchLink (s : State) (target : Word) : State := (s.writeReg s.params.lrIndex s.nextPc).jump target

/-- `Z, C, S, V <- f`. -/
def State.setFlags (s : State) (f : Flags) : State := { s with flags := f }

/-- IMM: `immhi <- h`, and on without clear_imm (R160). -/
def State.setPrefix (s : State) (h : BitVec 12) : State := { s with immhi := h, pc := s.nextPc }

/-- The interrupt context `{s_immhi, s_flags}` (R33, R124). -/
def State.context (s : State) : Word := s.sImmhi ++ s.sFlags

/-- The interrupt context from a register (R125). -/
def State.setContext (s : State) (v : Word) : State :=
  { s with sImmhi := v.extractLsb' 4 12, sFlags := v.extractLsb' 0 4 }

/-- `IE <- b` (R34). -/
def State.setIe (s : State) (b : Bool) : State := { s with ie := b }

/-- `sleeping <- 1` (R146). -/
def State.enterSleep (s : State) : State := { s with sleeping := true }

/-- An instruction that is `x[d] <- alu(op, a, b)` with its flags (R187, R204, R260). -/
def applyAlu (s : State) (op : AluOp) (d : RegNum) (a b : Word) : State :=
  ((if (alu s.params op a b s.flags).written then s.writeReg d (alu s.params op a b s.flags).result else s).setFlags
    (alu s.params op a b s.flags).flags).advance

/-- The same under a condition on the flags before the instruction (R265). -/
def condAlu (s : State) (cond : Cond) (op : AluOp) (d : RegNum) (a b : Word) : State :=
  if cond.holds s.flags then applyAlu s op d a b else s.advance

/-- A conditional move (R248). -/
def State.condMove (s : State) (cond : Cond) (d : RegNum) (v : Word) : State :=
  (if cond.holds s.flags then s.writeReg d v else s).advance

/-- A one-bit shift or rotate of x[r], in place (R126). -/
def applyShift (s : State) (op : ShiftOp) (r : RegNum) : State :=
  ((s.writeReg r (shiftResult op (s.readReg r) s.flags.c)).setFlags
    (shiftFlags s.params.flagRules.shift op (s.readReg r) (shiftResult op (s.readReg r) s.flags.c) s.flags)).advance

/-! ### Ports -/

/-- The datum the platform presents at a port: the next one the state supplies, or a free value (R59, U17). -/
def State.portDatum (s : State) (p : Word) : Word :=
  match s.portIn with
  | v :: _ => v
  | [] => Config.portInput s.portTaken p

/-- `PortRead(p)`: the datum, where the platform admits the port (R59, R312). -/
def portRead (s : State) (p : Word) : Res Word :=
  if s.admitsPort p then .next (s.portDatum p) else .refused (.portNotAdmitted p)

/-- The state after a port read that gave the datum `v` (R59, R310). -/
def State.tookPort (s : State) (p v : Word) : State :=
  { s with portIn := s.portIn.tail, portTaken := s.portTaken + 1, events := s.events ++ [.read p v] }

/-- `PortWrite(p, v)` (R59, R311). -/
def portWrite (s : State) (p v : Word) : Res State :=
  if s.admitsPort p then .next { s with events := s.events ++ [.write p v] } else .refused (.portNotAdmitted p)

/-! ### Interrupts -/

/-- The level of irq at this step: the next one the state supplies, or a free value (R36, R324). -/
def State.irqLevel (s : State) : Bool :=
  match s.irqIn with
  | b :: _ => b
  | [] => Config.irqInput s.irqTaken

/-- The sample of irq is taken from the input: one at every step, whatever IE is (R36, R320, R324). -/
def State.pollIrq (s : State) : State := { s with irqIn := s.irqIn.tail, irqTaken := s.irqTaken + 1 }

/-- `IE == 1 and irq == 1` (R320, R324). -/
def State.interruptTaken (s : State) : Bool := s.ie && s.irqLevel

/-- INT_VECTOR: the platform's, or the open parameter (R325, D26). -/
def State.intVector (s : State) : Word := s.platform.intVector.getD Config.intVector

/-- Taking an interrupt (R325). -/
def interruptEntry (s : State) : State :=
  { s.writeReg s.params.ilrIndex s.pc with
    sImmhi := s.immhi
    sFlags := s.flags.pack
    immhi := 0
    ie := false
    sleeping := false
    pc := s.intVector }

/-- The return from an interrupt (R123, R327). -/
def interruptReturn (s : State) : State :=
  { s with
    pc := s.readReg s.params.ilrIndex
    immhi := s.sImmhi
    flags := Flags.unpack s.sFlags
    ie := true }

/-! ### Fetch -/

/-- A byte of the memory that the fetch reads (R52, R60). -/
def fetchByte (s : State) (a : Word) : Res Byte :=
  if s.admitsFetch a then .next (s.codeMem.read a.toNat) else .refused (.memoryNotAdmitted a)

/-- The fetch of the instruction word at pc (R27, R51, R55, R320). -/
def fetchWord (s : State) : Res Word :=
  if s.pc.getLsbD 0 then .fault .misalignedFetch
  else andThen (fetchByte s s.pc) fun e => andThen (fetchByte s (s.pc + 1)) fun o => .next (joinBytes s.params.endian e o)

/-- A memory with a word stored at an even address, as the platform loads it (R51, R361). -/
def Memory.loadWord (m : Memory) (order : Endian) (a v : Word) : Memory :=
  (m.write a.toNat (evenByte order v)).write (a + 1).toNat (oddByte order v)

/-- A word of program placed at an even address of the memory that the fetch reads (R361). -/
def State.loadCode (s : State) (a v : Word) : State :=
  { s with
    mem := if s.params.unifiedMem then s.mem.loadWord s.params.endian a v else s.mem
    code := if s.params.unifiedMem then s.code else s.code.loadWord s.params.endian a v }

end Sys2Proof.Machine
end

