-- ==== Sys2Proof/Machine/Operands.lean ====
section
/-! DEFINITION. The operand forms: how the fields of an instruction name registers, immediates and addresses (R22, R61, R90, R231,
R260, R280, R281, R310). -/

namespace Sys2Proof

/-- The register a 4-bit field names (R22). -/
def low (r : LowReg) : RegNum := r.zeroExtend 7

/-- The destination of a class 6 word (R260). -/
def Dir.dest (dir : Dir) (rx : RegNum) (rl : LowReg) : RegNum :=
  match dir with
  | .toRx => rx
  | .toRl => low rl

/-- The source of a class 6 word (R260). -/
def Dir.src (dir : Dir) (rx : RegNum) (rl : LowReg) : RegNum :=
  match dir with
  | .toRx => low rl
  | .toRl => rx

end Sys2Proof

namespace Sys2Proof.Machine

/-- `imm16(lo4) = {immhi, lo4}` (R90). -/
def imm16 (s : State) (lo : Imm4) : Word := s.immhi ++ lo

/-- A register plus the 16-bit immediate, modulo 2^16: the one address form of classes 4, 8 and A to F (R61, R231, R280, R310). -/
def regPlusImm (s : State) (r : LowReg) (lo : Imm4) : Word := s.readReg (low r) + imm16 s lo

/-- The target of a branch (R231). -/
def branchTarget (s : State) (r : LowReg) (lo : Imm4) : Word := regPlusImm s r lo

/-- The effective address of classes 8, A, B, C, D (R280). -/
def effAddr (s : State) (idx : LowReg) (lo : Imm4) : Word := regPlusImm s idx lo

/-- The effective address of class 7: no immediate (R281). -/
def upperAddr (s : State) (idx : LowReg) : Word := s.readReg (low idx)

/-- The port address of classes E and F (R310). -/
def portAddr (s : State) (rp : LowReg) (lo : Imm4) : Word := regPlusImm s rp lo

end Sys2Proof.Machine
end

