-- ==== Sys2Proof/Machine/AluImm.lean ====
section
/-! DEFINITION. The meanings of class 3, immediate to register ALU operations (R204 to R217). -/

namespace Sys2Proof.Machine

/-- MOV DEST, IMM of class 3 (R205, R204): alu operation 0 (R171) on x[DEST] and the 16-bit immediate. -/
def execMovRI (d : LowReg) (lo : Imm4) (s : State) : Res State :=
  .next (applyAlu s .mov (low d) (s.readReg (low d)) (imm16 s lo))

/-- ADD DEST, IMM of class 3 (R206, R204): alu operation 1 (R172) on x[DEST] and the 16-bit immediate. -/
def execAddRI (d : LowReg) (lo : Imm4) (s : State) : Res State :=
  .next (applyAlu s .add (low d) (s.readReg (low d)) (imm16 s lo))

/-- ADC DEST, IMM of class 3 (R207, R204): alu operation 2 (R173) on x[DEST] and the 16-bit immediate. -/
def execAdcRI (d : LowReg) (lo : Imm4) (s : State) : Res State :=
  .next (applyAlu s .adc (low d) (s.readReg (low d)) (imm16 s lo))

/-- SUB DEST, IMM of class 3 (R208, R204): alu operation 3 (R174) on x[DEST] and the 16-bit immediate. -/
def execSubRI (d : LowReg) (lo : Imm4) (s : State) : Res State :=
  .next (applyAlu s .sub (low d) (s.readReg (low d)) (imm16 s lo))

/-- SBB DEST, IMM of class 3 (R209, R204): alu operation 4 (R175) on x[DEST] and the 16-bit immediate. -/
def execSbbRI (d : LowReg) (lo : Imm4) (s : State) : Res State :=
  .next (applyAlu s .sbb (low d) (s.readReg (low d)) (imm16 s lo))

/-- AND DEST, IMM of class 3 (R210, R204): alu operation 5 (R176) on x[DEST] and the 16-bit immediate. -/
def execAndRI (d : LowReg) (lo : Imm4) (s : State) : Res State :=
  .next (applyAlu s .and (low d) (s.readReg (low d)) (imm16 s lo))

/-- OR DEST, IMM of class 3 (R211, R204): alu operation 6 (R177) on x[DEST] and the 16-bit immediate. -/
def execOrRI (d : LowReg) (lo : Imm4) (s : State) : Res State :=
  .next (applyAlu s .or (low d) (s.readReg (low d)) (imm16 s lo))

/-- XOR DEST, IMM of class 3 (R212, R204): alu operation 7 (R178) on x[DEST] and the 16-bit immediate. -/
def execXorRI (d : LowReg) (lo : Imm4) (s : State) : Res State :=
  .next (applyAlu s .xor (low d) (s.readReg (low d)) (imm16 s lo))

/-- MUL DEST, IMM of class 3 (R213, R204): alu operation 8 (R179) on x[DEST] and the 16-bit immediate. -/
def execMulRI (d : LowReg) (lo : Imm4) (s : State) : Res State :=
  .next (applyAlu s .mul (low d) (s.readReg (low d)) (imm16 s lo))

/-- MULU DEST, IMM of class 3 (R214, R204): alu operation 9 (R180) on x[DEST] and the 16-bit immediate. -/
def execMuluRI (d : LowReg) (lo : Imm4) (s : State) : Res State :=
  .next (applyAlu s .mulu (low d) (s.readReg (low d)) (imm16 s lo))

/-- CMP DEST, IMM of class 3 (R215, R204): alu operation 12 (R183) on x[DEST] and the 16-bit immediate. -/
def execCmpRI (d : LowReg) (lo : Imm4) (s : State) : Res State :=
  .next (applyAlu s .cmp (low d) (s.readReg (low d)) (imm16 s lo))

/-- TEST DEST, IMM of class 3 (R216, R204): alu operation 13 (R184) on x[DEST] and the 16-bit immediate. -/
def execTestRI (d : LowReg) (lo : Imm4) (s : State) : Res State :=
  .next (applyAlu s .test (low d) (s.readReg (low d)) (imm16 s lo))

/-- UMULU DEST, IMM of class 3 (R217, R204): alu operation 14 (R185) on x[DEST] and the 16-bit immediate. -/
def execUmuluRI (d : LowReg) (lo : Imm4) (s : State) : Res State :=
  .next (applyAlu s .umulu (low d) (s.readReg (low d)) (imm16 s lo))

end Sys2Proof.Machine
end

