-- ==== Sys2Proof/Machine/AluReg.lean ====
section
/-! DEFINITION. The meanings of class 2, register to register ALU operations (R187 to R203). -/

namespace Sys2Proof.Machine

/-- MOV DEST, SRC of class 2 (R188, R187): alu operation 0 (R171) on x[DEST] and x[SRC]. -/
def execMovRR (d : LowReg) (r : LowReg) (s : State) : Res State :=
  .next (applyAlu s .mov (low d) (s.readReg (low d)) (s.readReg (low r)))

/-- ADD DEST, SRC of class 2 (R189, R187): alu operation 1 (R172) on x[DEST] and x[SRC]. -/
def execAddRR (d : LowReg) (r : LowReg) (s : State) : Res State :=
  .next (applyAlu s .add (low d) (s.readReg (low d)) (s.readReg (low r)))

/-- ADC DEST, SRC of class 2 (R190, R187): alu operation 2 (R173) on x[DEST] and x[SRC]. -/
def execAdcRR (d : LowReg) (r : LowReg) (s : State) : Res State :=
  .next (applyAlu s .adc (low d) (s.readReg (low d)) (s.readReg (low r)))

/-- SUB DEST, SRC of class 2 (R191, R187): alu operation 3 (R174) on x[DEST] and x[SRC]. -/
def execSubRR (d : LowReg) (r : LowReg) (s : State) : Res State :=
  .next (applyAlu s .sub (low d) (s.readReg (low d)) (s.readReg (low r)))

/-- SBB DEST, SRC of class 2 (R192, R187): alu operation 4 (R175) on x[DEST] and x[SRC]. -/
def execSbbRR (d : LowReg) (r : LowReg) (s : State) : Res State :=
  .next (applyAlu s .sbb (low d) (s.readReg (low d)) (s.readReg (low r)))

/-- AND DEST, SRC of class 2 (R193, R187): alu operation 5 (R176) on x[DEST] and x[SRC]. -/
def execAndRR (d : LowReg) (r : LowReg) (s : State) : Res State :=
  .next (applyAlu s .and (low d) (s.readReg (low d)) (s.readReg (low r)))

/-- OR DEST, SRC of class 2 (R194, R187): alu operation 6 (R177) on x[DEST] and x[SRC]. -/
def execOrRR (d : LowReg) (r : LowReg) (s : State) : Res State :=
  .next (applyAlu s .or (low d) (s.readReg (low d)) (s.readReg (low r)))

/-- XOR DEST, SRC of class 2 (R195, R187): alu operation 7 (R178) on x[DEST] and x[SRC]. -/
def execXorRR (d : LowReg) (r : LowReg) (s : State) : Res State :=
  .next (applyAlu s .xor (low d) (s.readReg (low d)) (s.readReg (low r)))

/-- MUL DEST, SRC of class 2 (R196, R187): alu operation 8 (R179) on x[DEST] and x[SRC]. -/
def execMulRR (d : LowReg) (r : LowReg) (s : State) : Res State :=
  .next (applyAlu s .mul (low d) (s.readReg (low d)) (s.readReg (low r)))

/-- MULU DEST, SRC of class 2 (R197, R187): alu operation 9 (R180) on x[DEST] and x[SRC]. -/
def execMuluRR (d : LowReg) (r : LowReg) (s : State) : Res State :=
  .next (applyAlu s .mulu (low d) (s.readReg (low d)) (s.readReg (low r)))

/-- RRN DEST, SRC of class 2 (R198, R187): alu operation 10 (R181) on x[DEST] and x[SRC]. -/
def execRrnRR (d : LowReg) (r : LowReg) (s : State) : Res State :=
  .next (applyAlu s .rrn (low d) (s.readReg (low d)) (s.readReg (low r)))

/-- RLN DEST, SRC of class 2 (R199, R187): alu operation 11 (R182) on x[DEST] and x[SRC]. -/
def execRlnRR (d : LowReg) (r : LowReg) (s : State) : Res State :=
  .next (applyAlu s .rln (low d) (s.readReg (low d)) (s.readReg (low r)))

/-- CMP DEST, SRC of class 2 (R200, R187): alu operation 12 (R183) on x[DEST] and x[SRC]. -/
def execCmpRR (d : LowReg) (r : LowReg) (s : State) : Res State :=
  .next (applyAlu s .cmp (low d) (s.readReg (low d)) (s.readReg (low r)))

/-- TEST DEST, SRC of class 2 (R201, R187): alu operation 13 (R184) on x[DEST] and x[SRC]. -/
def execTestRR (d : LowReg) (r : LowReg) (s : State) : Res State :=
  .next (applyAlu s .test (low d) (s.readReg (low d)) (s.readReg (low r)))

/-- UMULU DEST, SRC of class 2 (R202, R187): alu operation 14 (R185) on x[DEST] and x[SRC]. -/
def execUmuluRR (d : LowReg) (r : LowReg) (s : State) : Res State :=
  .next (applyAlu s .umulu (low d) (s.readReg (low d)) (s.readReg (low r)))

/-- BSWAP DEST, SRC of class 2 (R203, R187): alu operation 15 (R186) on x[DEST] and x[SRC]. -/
def execBswapRR (d : LowReg) (r : LowReg) (s : State) : Res State :=
  .next (applyAlu s .bswap (low d) (s.readReg (low d)) (s.readReg (low r)))

end Sys2Proof.Machine
end

