-- ==== Sys2Proof/Machine/Branch.lean ====
section
/-! DEFINITION. The meanings of class 4, the sixteen branches (R231 to R247). -/

namespace Sys2Proof.Machine

/-- BZ (BEQ) (R232, R231): pc becomes x[REG] + IMM when condition 0 holds. -/
def execBz (r : LowReg) (lo : Imm4) (s : State) : Res State :=
  .next (s.branch (Cond.z.holds s.flags) (branchTarget s r lo))

/-- BNZ (BNE) (R233, R231): pc becomes x[REG] + IMM when condition 1 holds. -/
def execBnz (r : LowReg) (lo : Imm4) (s : State) : Res State :=
  .next (s.branch (Cond.nz.holds s.flags) (branchTarget s r lo))

/-- BS (R234, R231): pc becomes x[REG] + IMM when condition 2 holds. -/
def execBs (r : LowReg) (lo : Imm4) (s : State) : Res State :=
  .next (s.branch (Cond.s.holds s.flags) (branchTarget s r lo))

/-- BNS (R235, R231): pc becomes x[REG] + IMM when condition 3 holds. -/
def execBns (r : LowReg) (lo : Imm4) (s : State) : Res State :=
  .next (s.branch (Cond.ns.holds s.flags) (branchTarget s r lo))

/-- BC (BLTU) (R236, R231): pc becomes x[REG] + IMM when condition 4 holds. -/
def execBc (r : LowReg) (lo : Imm4) (s : State) : Res State :=
  .next (s.branch (Cond.c.holds s.flags) (branchTarget s r lo))

/-- BNC (BGEU) (R237, R231): pc becomes x[REG] + IMM when condition 5 holds. -/
def execBnc (r : LowReg) (lo : Imm4) (s : State) : Res State :=
  .next (s.branch (Cond.nc.holds s.flags) (branchTarget s r lo))

/-- BV (R238, R231): pc becomes x[REG] + IMM when condition 6 holds. -/
def execBv (r : LowReg) (lo : Imm4) (s : State) : Res State :=
  .next (s.branch (Cond.v.holds s.flags) (branchTarget s r lo))

/-- BNV (R239, R231): pc becomes x[REG] + IMM when condition 7 holds. -/
def execBnv (r : LowReg) (lo : Imm4) (s : State) : Res State :=
  .next (s.branch (Cond.nv.holds s.flags) (branchTarget s r lo))

/-- BLT (R240, R231): pc becomes x[REG] + IMM when condition 8 holds. -/
def execBlt (r : LowReg) (lo : Imm4) (s : State) : Res State :=
  .next (s.branch (Cond.lt.holds s.flags) (branchTarget s r lo))

/-- BLE (R241, R231): pc becomes x[REG] + IMM when condition 9 holds. -/
def execBle (r : LowReg) (lo : Imm4) (s : State) : Res State :=
  .next (s.branch (Cond.le.holds s.flags) (branchTarget s r lo))

/-- BGT (R242, R231): pc becomes x[REG] + IMM when condition 10 holds. -/
def execBgt (r : LowReg) (lo : Imm4) (s : State) : Res State :=
  .next (s.branch (Cond.gt.holds s.flags) (branchTarget s r lo))

/-- BGE (R243, R231): pc becomes x[REG] + IMM when condition 11 holds. -/
def execBge (r : LowReg) (lo : Imm4) (s : State) : Res State :=
  .next (s.branch (Cond.ge.holds s.flags) (branchTarget s r lo))

/-- BLEU (R244, R231): pc becomes x[REG] + IMM when condition 12 holds. -/
def execBleu (r : LowReg) (lo : Imm4) (s : State) : Res State :=
  .next (s.branch (Cond.leu.holds s.flags) (branchTarget s r lo))

/-- BGTU (R245, R231): pc becomes x[REG] + IMM when condition 13 holds. -/
def execBgtu (r : LowReg) (lo : Imm4) (s : State) : Res State :=
  .next (s.branch (Cond.gtu.holds s.flags) (branchTarget s r lo))

/-- BA (R246, R231): pc becomes x[REG] + IMM when condition 14 holds. -/
def execBa (r : LowReg) (lo : Imm4) (s : State) : Res State :=
  .next (s.branch (Cond.a.holds s.flags) (branchTarget s r lo))

/-- BL (R247, R231): the target is computed first, then LR <- pc + 2, then pc <- target. -/
def execBl (r : LowReg) (lo : Imm4) (s : State) : Res State :=
  .next (s.branchLink (branchTarget s r lo))

end Sys2Proof.Machine
end

