-- ==== Sys2Proof/Machine/CondMove.lean ====
section
/-! DEFINITION. The meanings of class 5, the conditional move (R248). -/

namespace Sys2Proof.Machine

/-- MOV.Z (R248): `if cond(0) then x[DEST] <- x[SRC]`. -/
def execMovZ (d : LowReg) (r : LowReg) (s : State) : Res State :=
  .next (s.condMove .z (low d) (s.readReg (low r)))

/-- MOV.NZ (R248): `if cond(1) then x[DEST] <- x[SRC]`. -/
def execMovNz (d : LowReg) (r : LowReg) (s : State) : Res State :=
  .next (s.condMove .nz (low d) (s.readReg (low r)))

/-- MOV.S (R248): `if cond(2) then x[DEST] <- x[SRC]`. -/
def execMovS (d : LowReg) (r : LowReg) (s : State) : Res State :=
  .next (s.condMove .s (low d) (s.readReg (low r)))

/-- MOV.NS (R248): `if cond(3) then x[DEST] <- x[SRC]`. -/
def execMovNs (d : LowReg) (r : LowReg) (s : State) : Res State :=
  .next (s.condMove .ns (low d) (s.readReg (low r)))

/-- MOV.C (R248): `if cond(4) then x[DEST] <- x[SRC]`. -/
def execMovC (d : LowReg) (r : LowReg) (s : State) : Res State :=
  .next (s.condMove .c (low d) (s.readReg (low r)))

/-- MOV.NC (R248): `if cond(5) then x[DEST] <- x[SRC]`. -/
def execMovNc (d : LowReg) (r : LowReg) (s : State) : Res State :=
  .next (s.condMove .nc (low d) (s.readReg (low r)))

/-- MOV.V (R248): `if cond(6) then x[DEST] <- x[SRC]`. -/
def execMovV (d : LowReg) (r : LowReg) (s : State) : Res State :=
  .next (s.condMove .v (low d) (s.readReg (low r)))

/-- MOV.NV (R248): `if cond(7) then x[DEST] <- x[SRC]`. -/
def execMovNv (d : LowReg) (r : LowReg) (s : State) : Res State :=
  .next (s.condMove .nv (low d) (s.readReg (low r)))

/-- MOV.LT (R248): `if cond(8) then x[DEST] <- x[SRC]`. -/
def execMovLt (d : LowReg) (r : LowReg) (s : State) : Res State :=
  .next (s.condMove .lt (low d) (s.readReg (low r)))

/-- MOV.LE (R248): `if cond(9) then x[DEST] <- x[SRC]`. -/
def execMovLe (d : LowReg) (r : LowReg) (s : State) : Res State :=
  .next (s.condMove .le (low d) (s.readReg (low r)))

/-- MOV.GT (R248): `if cond(10) then x[DEST] <- x[SRC]`. -/
def execMovGt (d : LowReg) (r : LowReg) (s : State) : Res State :=
  .next (s.condMove .gt (low d) (s.readReg (low r)))

/-- MOV.GE (R248): `if cond(11) then x[DEST] <- x[SRC]`. -/
def execMovGe (d : LowReg) (r : LowReg) (s : State) : Res State :=
  .next (s.condMove .ge (low d) (s.readReg (low r)))

/-- MOV.LEU (R248): `if cond(12) then x[DEST] <- x[SRC]`. -/
def execMovLeu (d : LowReg) (r : LowReg) (s : State) : Res State :=
  .next (s.condMove .leu (low d) (s.readReg (low r)))

/-- MOV.GTU (R248): `if cond(13) then x[DEST] <- x[SRC]`. -/
def execMovGtu (d : LowReg) (r : LowReg) (s : State) : Res State :=
  .next (s.condMove .gtu (low d) (s.readReg (low r)))

/-- MOV.A (R248): `if cond(14) then x[DEST] <- x[SRC]`. -/
def execMovA (d : LowReg) (r : LowReg) (s : State) : Res State :=
  .next (s.condMove .a (low d) (s.readReg (low r)))

/-- MOV.L (R248): `if cond(15) then x[DEST] <- x[SRC]`. -/
def execMovL (d : LowReg) (r : LowReg) (s : State) : Res State :=
  .next (s.condMove .l (low d) (s.readReg (low r)))

/-- MOV.cc of class 5 as one instruction with a condition field (R248): it does what the instance for its condition does. -/
def execMovCc (cond : Cond) (d : LowReg) (r : LowReg) (s : State) : Res State :=
  match cond with
  | .z => execMovZ d r s
  | .nz => execMovNz d r s
  | .s => execMovS d r s
  | .ns => execMovNs d r s
  | .c => execMovC d r s
  | .nc => execMovNc d r s
  | .v => execMovV d r s
  | .nv => execMovNv d r s
  | .lt => execMovLt d r s
  | .le => execMovLe d r s
  | .gt => execMovGt d r s
  | .ge => execMovGe d r s
  | .leu => execMovLeu d r s
  | .gtu => execMovGtu d r s
  | .a => execMovA d r s
  | .l => execMovL d r s

end Sys2Proof.Machine
end

