-- ==== Sys2Proof/Machine/Extended.lean ====
section
/-! DEFINITION. The meanings of class 6, ALU operations that reach an extended register (R260 to R263, R400 to R415). -/

namespace Sys2Proof.Machine

/-- MOV of class 6 (R400, R260): alu operation 0 (R171) on x[D] and x[Sr], D and Sr by DIR. -/
def execMovX (dir : Dir) (rx : RegNum) (rl : LowReg) (s : State) : Res State :=
  .next (applyAlu s .mov (dir.dest rx rl) (s.readReg (dir.dest rx rl)) (s.readReg (dir.src rx rl)))

/-- ADD of class 6 (R401, R260): alu operation 1 (R172) on x[D] and x[Sr], D and Sr by DIR. -/
def execAddX (dir : Dir) (rx : RegNum) (rl : LowReg) (s : State) : Res State :=
  .next (applyAlu s .add (dir.dest rx rl) (s.readReg (dir.dest rx rl)) (s.readReg (dir.src rx rl)))

/-- ADC of class 6 (R402, R260): alu operation 2 (R173) on x[D] and x[Sr], D and Sr by DIR. -/
def execAdcX (dir : Dir) (rx : RegNum) (rl : LowReg) (s : State) : Res State :=
  .next (applyAlu s .adc (dir.dest rx rl) (s.readReg (dir.dest rx rl)) (s.readReg (dir.src rx rl)))

/-- SUB of class 6 (R403, R260): alu operation 3 (R174) on x[D] and x[Sr], D and Sr by DIR. -/
def execSubX (dir : Dir) (rx : RegNum) (rl : LowReg) (s : State) : Res State :=
  .next (applyAlu s .sub (dir.dest rx rl) (s.readReg (dir.dest rx rl)) (s.readReg (dir.src rx rl)))

/-- SBB of class 6 (R404, R260): alu operation 4 (R175) on x[D] and x[Sr], D and Sr by DIR. -/
def execSbbX (dir : Dir) (rx : RegNum) (rl : LowReg) (s : State) : Res State :=
  .next (applyAlu s .sbb (dir.dest rx rl) (s.readReg (dir.dest rx rl)) (s.readReg (dir.src rx rl)))

/-- AND of class 6 (R405, R260): alu operation 5 (R176) on x[D] and x[Sr], D and Sr by DIR. -/
def execAndX (dir : Dir) (rx : RegNum) (rl : LowReg) (s : State) : Res State :=
  .next (applyAlu s .and (dir.dest rx rl) (s.readReg (dir.dest rx rl)) (s.readReg (dir.src rx rl)))

/-- OR of class 6 (R406, R260): alu operation 6 (R177) on x[D] and x[Sr], D and Sr by DIR. -/
def execOrX (dir : Dir) (rx : RegNum) (rl : LowReg) (s : State) : Res State :=
  .next (applyAlu s .or (dir.dest rx rl) (s.readReg (dir.dest rx rl)) (s.readReg (dir.src rx rl)))

/-- XOR of class 6 (R407, R260): alu operation 7 (R178) on x[D] and x[Sr], D and Sr by DIR. -/
def execXorX (dir : Dir) (rx : RegNum) (rl : LowReg) (s : State) : Res State :=
  .next (applyAlu s .xor (dir.dest rx rl) (s.readReg (dir.dest rx rl)) (s.readReg (dir.src rx rl)))

/-- MUL of class 6 (R408, R260): alu operation 8 (R179) on x[D] and x[Sr], D and Sr by DIR. -/
def execMulX (dir : Dir) (rx : RegNum) (rl : LowReg) (s : State) : Res State :=
  .next (applyAlu s .mul (dir.dest rx rl) (s.readReg (dir.dest rx rl)) (s.readReg (dir.src rx rl)))

/-- MULU of class 6 (R409, R260): alu operation 9 (R180) on x[D] and x[Sr], D and Sr by DIR. -/
def execMuluX (dir : Dir) (rx : RegNum) (rl : LowReg) (s : State) : Res State :=
  .next (applyAlu s .mulu (dir.dest rx rl) (s.readReg (dir.dest rx rl)) (s.readReg (dir.src rx rl)))

/-- RRN of class 6 (R410, R260): alu operation 10 (R181) on x[D] and x[Sr], D and Sr by DIR. -/
def execRrnX (dir : Dir) (rx : RegNum) (rl : LowReg) (s : State) : Res State :=
  .next (applyAlu s .rrn (dir.dest rx rl) (s.readReg (dir.dest rx rl)) (s.readReg (dir.src rx rl)))

/-- RLN of class 6 (R411, R260): alu operation 11 (R182) on x[D] and x[Sr], D and Sr by DIR. -/
def execRlnX (dir : Dir) (rx : RegNum) (rl : LowReg) (s : State) : Res State :=
  .next (applyAlu s .rln (dir.dest rx rl) (s.readReg (dir.dest rx rl)) (s.readReg (dir.src rx rl)))

/-- CMP of class 6 (R412, R260): alu operation 12 (R183) on x[D] and x[Sr], D and Sr by DIR. -/
def execCmpX (dir : Dir) (rx : RegNum) (rl : LowReg) (s : State) : Res State :=
  .next (applyAlu s .cmp (dir.dest rx rl) (s.readReg (dir.dest rx rl)) (s.readReg (dir.src rx rl)))

/-- TEST of class 6 (R413, R260): alu operation 13 (R184) on x[D] and x[Sr], D and Sr by DIR. -/
def execTestX (dir : Dir) (rx : RegNum) (rl : LowReg) (s : State) : Res State :=
  .next (applyAlu s .test (dir.dest rx rl) (s.readReg (dir.dest rx rl)) (s.readReg (dir.src rx rl)))

/-- UMULU of class 6 (R414, R260): alu operation 14 (R185) on x[D] and x[Sr], D and Sr by DIR. -/
def execUmuluX (dir : Dir) (rx : RegNum) (rl : LowReg) (s : State) : Res State :=
  .next (applyAlu s .umulu (dir.dest rx rl) (s.readReg (dir.dest rx rl)) (s.readReg (dir.src rx rl)))

/-- BSWAP of class 6 (R415, R260): alu operation 15 (R186) on x[D] and x[Sr], D and Sr by DIR. -/
def execBswapX (dir : Dir) (rx : RegNum) (rl : LowReg) (s : State) : Res State :=
  .next (applyAlu s .bswap (dir.dest rx rl) (s.readReg (dir.dest rx rl)) (s.readReg (dir.src rx rl)))

/-- The class 6 word (R260): the operation is `immhi[3:0]` as it stands, and the word does what the row of that operation does (R400 to R415). -/
def execClass6Word (dir : Dir) (rx : RegNum) (rl : LowReg) (s : State) : Res State :=
  match prefixOp s.immhi with
  | .mov => execMovX dir rx rl s
  | .add => execAddX dir rx rl s
  | .adc => execAdcX dir rx rl s
  | .sub => execSubX dir rx rl s
  | .sbb => execSbbX dir rx rl s
  | .and => execAndX dir rx rl s
  | .or => execOrX dir rx rl s
  | .xor => execXorX dir rx rl s
  | .mul => execMulX dir rx rl s
  | .mulu => execMuluX dir rx rl s
  | .rrn => execRrnX dir rx rl s
  | .rln => execRlnX dir rx rl s
  | .cmp => execCmpX dir rx rl s
  | .test => execTestX dir rx rl s
  | .umulu => execUmuluX dir rx rl s
  | .bswap => execBswapX dir rx rl s

end Sys2Proof.Machine
end

