-- ==== Sys2Proof/Machine/General.lean ====
section
/-! DEFINITION. The meanings of class 0: no operation, returns, interrupt context, one-bit shifts and rotates, flag operations, interrupt enable and sleep (R120 to R141, R144 to R146). -/

namespace Sys2Proof.Machine

/-- NOP (R121): nothing but the end of every instruction, which clears the immediate register. -/
def execNop (s : State) : Res State :=
  .next s.advance

/-- RET (R122): `pc <- LR; clear_imm`. -/
def execRet (s : State) : Res State :=
  .next (s.jump (s.readReg s.params.lrIndex))

/-- IRET (R123, R327): the return from an interrupt, `interruptReturn`. -/
def execIret (s : State) : Res State :=
  .next (interruptReturn s)

/-- STIX (R124): `x[REG] <- {s_immhi, s_flags}`. -/
def execStix (r : LowReg) (s : State) : Res State :=
  .next (s.writeReg (low r) s.context).advance

/-- RSIX (R125): `s_immhi <- x[REG][15:4]; s_flags <- x[REG][3:0]`. -/
def execRsix (r : LowReg) (s : State) : Res State :=
  .next (s.setContext (s.readReg (low r))).advance

/-- ASR (R127, R126): the one-bit `asr` of x[REG], in place. -/
def execAsr (r : LowReg) (s : State) : Res State :=
  .next (applyShift s .asr (low r))

/-- LSR (R128, R126): the one-bit `lsr` of x[REG], in place. -/
def execLsr (r : LowReg) (s : State) : Res State :=
  .next (applyShift s .lsr (low r))

/-- LSL (R129, R126): the one-bit `lsl` of x[REG], in place. -/
def execLsl (r : LowReg) (s : State) : Res State :=
  .next (applyShift s .lsl (low r))

/-- ROLC (R130, R126): the one-bit `rolc` of x[REG], in place. -/
def execRolc (r : LowReg) (s : State) : Res State :=
  .next (applyShift s .rolc (low r))

/-- RORC (R131, R126): the one-bit `rorc` of x[REG], in place. -/
def execRorc (r : LowReg) (s : State) : Res State :=
  .next (applyShift s .rorc (low r))

/-- ROL (R132, R126): the one-bit `rol` of x[REG], in place. -/
def execRol (r : LowReg) (s : State) : Res State :=
  .next (applyShift s .rol (low r))

/-- ROR (R133, R126): the one-bit `ror` of x[REG], in place. -/
def execRor (r : LowReg) (s : State) : Res State :=
  .next (applyShift s .ror (low r))

/-- CC (R134): clear carry; the REG field is ignored (R93). -/
def execCc (s : State) : Res State :=
  .next (s.setFlags { s.flags with c := false }).advance

/-- SC (R135): set carry; the REG field is ignored (R93). -/
def execSc (s : State) : Res State :=
  .next (s.setFlags { s.flags with c := true }).advance

/-- CZ (R136): clear zero; the REG field is ignored (R93). -/
def execCz (s : State) : Res State :=
  .next (s.setFlags { s.flags with z := false }).advance

/-- SZ (R137): set zero; the REG field is ignored (R93). -/
def execSz (s : State) : Res State :=
  .next (s.setFlags { s.flags with z := true }).advance

/-- CS (R138): clear sign; the REG field is ignored (R93). -/
def execCs (s : State) : Res State :=
  .next (s.setFlags { s.flags with s := false }).advance

/-- SS (R139): set sign; the REG field is ignored (R93). -/
def execSs (s : State) : Res State :=
  .next (s.setFlags { s.flags with s := true }).advance

/-- STF (R140): `x[REG] <- {0, Z, C, S, V}`. -/
def execStf (r : LowReg) (s : State) : Res State :=
  .next (s.writeReg (low r) (0#12 ++ s.flags.pack)).advance

/-- RSF (R141): `{Z, C, S, V} <- x[REG][3:0]`. -/
def execRsf (r : LowReg) (s : State) : Res State :=
  .next (s.setFlags (Flags.unpack ((s.readReg (low r)).extractLsb' 0 4))).advance

/-- CLI (R144): `IE <- 0`. -/
def execCli (s : State) : Res State :=
  .next (s.setIe false).advance

/-- STI (R145): `IE <- 1`; a request that is up is taken at the next step, after this one (R324). -/
def execSti (s : State) : Res State :=
  .next (s.setIe true).advance

/-- SLEEP (R146, R330): `sleeping <- 1`, and pc goes to the instruction after it. -/
def execSleep (s : State) : Res State :=
  .next s.enterSleep.advance

end Sys2Proof.Machine
end

