-- ==== Sys2Proof/Machine/ImmPrefix.lean ====
section
/-! DEFINITION. The meanings of class 1, the immediate prefix IMM (R160 to R163). -/

namespace Sys2Proof.Machine

/-- IMM (R160): `immhi <- w[11:0]`, with no clear_imm. -/
def execImm (h : BitVec 12) (s : State) : Res State :=
  .next (s.setPrefix h)

end Sys2Proof.Machine
end

