-- ==== Sys2Proof/Machine/LoadStore.lean ====
section
/-! DEFINITION. The meanings of classes 8, A, B, C and D, byte and word loads and stores of main memory (R280, R288 to R292). -/

namespace Sys2Proof.Machine

/-- LDBSX (R288, R280): `x[REG] <- sext_16(MemRead(ea, 1))`. -/
def execLdbsx (idx : LowReg) (reg : LowReg) (lo : Imm4) (s : State) : Res State :=
  andThen (memReadByte s (effAddr s idx lo)) fun b => .next (s.writeReg (low reg) (b.signExtend 16)).advance

/-- LDB (R289, R280): `x[REG] <- zext_16(MemRead(ea, 1))`. -/
def execLdb (idx : LowReg) (reg : LowReg) (lo : Imm4) (s : State) : Res State :=
  andThen (memReadByte s (effAddr s idx lo)) fun b =>
    .next (s.writeReg (low reg) (byteToReg s.params.byteLoadFill (s.readReg (low reg)) b)).advance

/-- STB (R290, R280): `MemWrite(ea, 1, x[REG][7:0])`. -/
def execStb (idx : LowReg) (reg : LowReg) (lo : Imm4) (s : State) : Res State :=
  andThen (memWriteByte s (effAddr s idx lo) ((s.readReg (low reg)).extractLsb' 0 8)) fun t => .next t.advance

/-- LD (R291, R280): `x[REG] <- MemRead(ea, 2)`; an odd ea has no meaning (R54). -/
def execLd (idx : LowReg) (reg : LowReg) (lo : Imm4) (s : State) : Res State :=
  andThen (memReadWord s (effAddr s idx lo)) fun v => .next (s.writeReg (low reg) v).advance

/-- ST (R292, R280): `MemWrite(ea, 2, x[REG])`; an odd ea has no meaning (R54). -/
def execSt (idx : LowReg) (reg : LowReg) (lo : Imm4) (s : State) : Res State :=
  andThen (memWriteWord s (effAddr s idx lo) (s.readReg (low reg))) fun t => .next t.advance

end Sys2Proof.Machine
end

