-- ==== Sys2Proof/Machine/PortIO.lean ====
section
/-! DEFINITION. The meanings of classes E and F, port input and output (R310, R311). -/

namespace Sys2Proof.Machine

/-- IN (R310): `x[REGV] <- PortRead(p)`; the read is recorded as an event (R59). -/
def execInPort (rp : LowReg) (rv : LowReg) (lo : Imm4) (s : State) : Res State :=
  andThen (portRead s (portAddr s rp lo)) fun v => .next ((s.tookPort (portAddr s rp lo) v).writeReg (low rv) v).advance

/-- OUT (R311): `PortWrite(p, x[REGV])`, recorded as an event (R59). -/
def execOutPort (rp : LowReg) (rv : LowReg) (lo : Imm4) (s : State) : Res State :=
  andThen (portWrite s (portAddr s rp lo) (s.readReg (low rv))) fun t => .next t.advance

end Sys2Proof.Machine
end

