-- ==== Sys2Proof/Machine/Reserved.lean ====
section
/-! DEFINITION. The meanings of the reserved rows (R94, R142, R143, R147, R218, R287): the spec marks them `raise Unspecified(reserved encoding)`, which a model turns into a fault (R321, U1 to U5, U7, U9). -/

namespace Sys2Proof.Machine

/-- Operation 31 of class 0 sub-class 4 (R142, R94): no meaning, the step faults. -/
def execReservedAlu31 (_r : LowReg) (_s : State) : Res State :=
  .fault .reservedEncoding

/-- Class 0 sub-class 5 (R143, R94): no meaning, the step faults. -/
def execReservedSub5 (_b : BitVec 8) (_s : State) : Res State :=
  .fault .reservedEncoding

/-- Class 0 sub-classes 8 to 15 (R147, R94): no meaning, the step faults. -/
def execReservedSub8To15 (_b : BitVec 11) (_s : State) : Res State :=
  .fault .reservedEncoding

/-- Words 0x0001 to 0x00FF (R94, R121): no meaning, the step faults. -/
def execReservedNopNonzero (_b : BitVec 8) (_s : State) : Res State :=
  .fault .reservedEncoding

/-- Words 0x0102 to 0x01FF (R94): no meaning, the step faults. -/
def execReservedRetNonzero (_b : BitVec 8) (_s : State) : Res State :=
  .fault .reservedEncoding

/-- Class 3 operation 10 (R218, R94): no meaning, the step faults; it is not run as the class 2 operation. -/
def execReservedClass3Op10 (_d : LowReg) (_lo : Imm4) (_s : State) : Res State :=
  .fault .reservedEncoding

/-- Class 3 operation 11 (R218, R94): no meaning, the step faults; it is not run as the class 2 operation. -/
def execReservedClass3Op11 (_d : LowReg) (_lo : Imm4) (_s : State) : Res State :=
  .fault .reservedEncoding

/-- Class 3 operation 15 (R218, R94): no meaning, the step faults; it is not run as the class 2 operation. -/
def execReservedClass3Op15 (_d : LowReg) (_lo : Imm4) (_s : State) : Res State :=
  .fault .reservedEncoding

/-- Class 7 with FLG 0b101 (R287, R94): no meaning, the step faults. -/
def execReservedClass7Flg5 (_idx : LowReg) (_reg : LowReg) (_s : State) : Res State :=
  .fault .reservedEncoding

end Sys2Proof.Machine
end

