-- ==== Sys2Proof/Machine/ThreeReg.lean ====
section
/-! DEFINITION. The meanings of class 9, conditional three-register ALU operations (R265 to R268, R420 to R435). -/

namespace Sys2Proof.Machine

/-- MOV.cc of class 9 (R420, R265): if the condition holds, alu operation 0 (R171) on x[SRC1] and x[SRC2]. -/
def execMovT (cond : Cond) (d : LowReg) (a : LowReg) (b : LowReg) (s : State) : Res State :=
  .next (condAlu s cond .mov (low d) (s.readReg (low a)) (s.readReg (low b)))

/-- ADD.cc of class 9 (R421, R265): if the condition holds, alu operation 1 (R172) on x[SRC1] and x[SRC2]. -/
def execAddT (cond : Cond) (d : LowReg) (a : LowReg) (b : LowReg) (s : State) : Res State :=
  .next (condAlu s cond .add (low d) (s.readReg (low a)) (s.readReg (low b)))

/-- ADC.cc of class 9 (R422, R265): if the condition holds, alu operation 2 (R173) on x[SRC1] and x[SRC2]. -/
def execAdcT (cond : Cond) (d : LowReg) (a : LowReg) (b : LowReg) (s : State) : Res State :=
  .next (condAlu s cond .adc (low d) (s.readReg (low a)) (s.readReg (low b)))

/-- SUB.cc of class 9 (R423, R265): if the condition holds, alu operation 3 (R174) on x[SRC1] and x[SRC2]. -/
def execSubT (cond : Cond) (d : LowReg) (a : LowReg) (b : LowReg) (s : State) : Res State :=
  .next (condAlu s cond .sub (low d) (s.readReg (low a)) (s.readReg (low b)))

/-- SBB.cc of class 9 (R424, R265): if the condition holds, alu operation 4 (R175) on x[SRC1] and x[SRC2]. -/
def execSbbT (cond : Cond) (d : LowReg) (a : LowReg) (b : LowReg) (s : State) : Res State :=
  .next (condAlu s cond .sbb (low d) (s.readReg (low a)) (s.readReg (low b)))

/-- AND.cc of class 9 (R425, R265): if the condition holds, alu operation 5 (R176) on x[SRC1] and x[SRC2]. -/
def execAndT (cond : Cond) (d : LowReg) (a : LowReg) (b : LowReg) (s : State) : Res State :=
  .next (condAlu s cond .and (low d) (s.readReg (low a)) (s.readReg (low b)))

/-- OR.cc of class 9 (R426, R265): if the condition holds, alu operation 6 (R177) on x[SRC1] and x[SRC2]. -/
def execOrT (cond : Cond) (d : LowReg) (a : LowReg) (b : LowReg) (s : State) : Res State :=
  .next (condAlu s cond .or (low d) (s.readReg (low a)) (s.readReg (low b)))

/-- XOR.cc of class 9 (R427, R265): if the condition holds, alu operation 7 (R178) on x[SRC1] and x[SRC2]. -/
def execXorT (cond : Cond) (d : LowReg) (a : LowReg) (b : LowReg) (s : State) : Res State :=
  .next (condAlu s cond .xor (low d) (s.readReg (low a)) (s.readReg (low b)))

/-- MUL.cc of class 9 (R428, R265): if the condition holds, alu operation 8 (R179) on x[SRC1] and x[SRC2]. -/
def execMulT (cond : Cond) (d : LowReg) (a : LowReg) (b : LowReg) (s : State) : Res State :=
  .next (condAlu s cond .mul (low d) (s.readReg (low a)) (s.readReg (low b)))

/-- MULU.cc of class 9 (R429, R265): if the condition holds, alu operation 9 (R180) on x[SRC1] and x[SRC2]. -/
def execMuluT (cond : Cond) (d : LowReg) (a : LowReg) (b : LowReg) (s : State) : Res State :=
  .next (condAlu s cond .mulu (low d) (s.readReg (low a)) (s.readReg (low b)))

/-- RRN.cc of class 9 (R430, R265): if the condition holds, alu operation 10 (R181) on x[SRC1] and x[SRC2]. -/
def execRrnT (cond : Cond) (d : LowReg) (a : LowReg) (b : LowReg) (s : State) : Res State :=
  .next (condAlu s cond .rrn (low d) (s.readReg (low a)) (s.readReg (low b)))

/-- RLN.cc of class 9 (R431, R265): if the condition holds, alu operation 11 (R182) on x[SRC1] and x[SRC2]. -/
def execRlnT (cond : Cond) (d : LowReg) (a : LowReg) (b : LowReg) (s : State) : Res State :=
  .next (condAlu s cond .rln (low d) (s.readReg (low a)) (s.readReg (low b)))

/-- CMP.cc of class 9 (R432, R265): if the condition holds, alu operation 12 (R183) on x[SRC1] and x[SRC2]. -/
def execCmpT (cond : Cond) (d : LowReg) (a : LowReg) (b : LowReg) (s : State) : Res State :=
  .next (condAlu s cond .cmp (low d) (s.readReg (low a)) (s.readReg (low b)))

/-- TEST.cc of class 9 (R433, R265): if the condition holds, alu operation 13 (R184) on x[SRC1] and x[SRC2]. -/
def execTestT (cond : Cond) (d : LowReg) (a : LowReg) (b : LowReg) (s : State) : Res State :=
  .next (condAlu s cond .test (low d) (s.readReg (low a)) (s.readReg (low b)))

/-- UMULU.cc of class 9 (R434, R265): if the condition holds, alu operation 14 (R185) on x[SRC1] and x[SRC2]. -/
def execUmuluT (cond : Cond) (d : LowReg) (a : LowReg) (b : LowReg) (s : State) : Res State :=
  .next (condAlu s cond .umulu (low d) (s.readReg (low a)) (s.readReg (low b)))

/-- BSWAP.cc of class 9 (R435, R265): if the condition holds, alu operation 15 (R186) on x[SRC1] and x[SRC2]. -/
def execBswapT (cond : Cond) (d : LowReg) (a : LowReg) (b : LowReg) (s : State) : Res State :=
  .next (condAlu s cond .bswap (low d) (s.readReg (low a)) (s.readReg (low b)))

/-- The class 9 word (R265): the operation is `immhi[3:0]` and the condition `immhi[7:4]` as they stand, and the word does what the row of that operation does (R420 to R435). -/
def execClass9Word (d : LowReg) (a : LowReg) (b : LowReg) (s : State) : Res State :=
  match prefixOp s.immhi with
  | .mov => execMovT (prefixCond s.immhi) d a b s
  | .add => execAddT (prefixCond s.immhi) d a b s
  | .adc => execAdcT (prefixCond s.immhi) d a b s
  | .sub => execSubT (prefixCond s.immhi) d a b s
  | .sbb => execSbbT (prefixCond s.immhi) d a b s
  | .and => execAndT (prefixCond s.immhi) d a b s
  | .or => execOrT (prefixCond s.immhi) d a b s
  | .xor => execXorT (prefixCond s.immhi) d a b s
  | .mul => execMulT (prefixCond s.immhi) d a b s
  | .mulu => execMuluT (prefixCond s.immhi) d a b s
  | .rrn => execRrnT (prefixCond s.immhi) d a b s
  | .rln => execRlnT (prefixCond s.immhi) d a b s
  | .cmp => execCmpT (prefixCond s.immhi) d a b s
  | .test => execTestT (prefixCond s.immhi) d a b s
  | .umulu => execUmuluT (prefixCond s.immhi) d a b s
  | .bswap => execBswapT (prefixCond s.immhi) d a b s

end Sys2Proof.Machine
end

