-- ==== Sys2Proof/Machine/UpperMem.lean ====
section
/-! DEFINITION. The meanings of class 7, access to the upper two banks (R281 to R286). -/

namespace Sys2Proof.Machine

/-- ULD (R282, R281): `x[REG] <- UpperRead(x[IDX], 2)`; an odd x[IDX] has no meaning (R54). -/
def execUld (idx : LowReg) (reg : LowReg) (s : State) : Res State :=
  andThen (upperReadWord s (upperAddr s idx)) fun v => .next (s.writeReg (low reg) v).advance

/-- ULDB (R283, R281): `x[REG] <- zext_16(UpperRead(x[IDX], 1))`. -/
def execUldb (idx : LowReg) (reg : LowReg) (s : State) : Res State :=
  .next (s.writeReg (low reg) (byteToReg s.params.byteLoadFill (s.readReg (low reg)) (upperReadByte s (upperAddr s idx)))).advance

/-- ULDBSX (R284, R281): `x[REG] <- sext_16(UpperRead(x[IDX], 1))`. -/
def execUldbsx (idx : LowReg) (reg : LowReg) (s : State) : Res State :=
  .next (s.writeReg (low reg) ((upperReadByte s (upperAddr s idx)).signExtend 16)).advance

/-- UST (R285, R281): `UpperWrite(x[IDX], 2, x[REG])`; an odd x[IDX] has no meaning (R54). -/
def execUst (idx : LowReg) (reg : LowReg) (s : State) : Res State :=
  andThen (upperWriteWord s (upperAddr s idx) (s.readReg (low reg))) fun t => .next t.advance

/-- USTB (R286, R281): `UpperWrite(x[IDX], 1, x[REG][7:0])`; the other byte of the word is unchanged. -/
def execUstb (idx : LowReg) (reg : LowReg) (s : State) : Res State :=
  (.next (upperWriteByte s (upperAddr s idx) ((s.readReg (low reg)).extractLsb' 0 8)).advance)

end Sys2Proof.Machine
end

