-- ==== Sys2Proof/Machine/Dispatch.lean ====
section
/-! DEFINITION. exec: one arm per row of the opcode table, each one direct call of that row's meaning. -/

namespace Sys2Proof.Machine

def exec (i : Instr) (s : State) : Host.Outcome State Fault Refusal :=
  match i with
  | .nop => Sys2Proof.Machine.execNop s
  | .ret => Sys2Proof.Machine.execRet s
  | .iret => Sys2Proof.Machine.execIret s
  | .stix r => Sys2Proof.Machine.execStix r s
  | .rsix r => Sys2Proof.Machine.execRsix r s
  | .asr r => Sys2Proof.Machine.execAsr r s
  | .lsr r => Sys2Proof.Machine.execLsr r s
  | .lsl r => Sys2Proof.Machine.execLsl r s
  | .rolc r => Sys2Proof.Machine.execRolc r s
  | .rorc r => Sys2Proof.Machine.execRorc r s
  | .rol r => Sys2Proof.Machine.execRol r s
  | .ror r => Sys2Proof.Machine.execRor r s
  | .cc => Sys2Proof.Machine.execCc s
  | .sc => Sys2Proof.Machine.execSc s
  | .cz => Sys2Proof.Machine.execCz s
  | .sz => Sys2Proof.Machine.execSz s
  | .cs => Sys2Proof.Machine.execCs s
  | .ss => Sys2Proof.Machine.execSs s
  | .stf r => Sys2Proof.Machine.execStf r s
  | .rsf r => Sys2Proof.Machine.execRsf r s
  | .reservedAlu31 r => Sys2Proof.Machine.execReservedAlu31 r s
  | .reservedSub5 b => Sys2Proof.Machine.execReservedSub5 b s
  | .cli => Sys2Proof.Machine.execCli s
  | .sti => Sys2Proof.Machine.execSti s
  | .sleep => Sys2Proof.Machine.execSleep s
  | .reservedSub8To15 b => Sys2Proof.Machine.execReservedSub8To15 b s
  | .reservedNopNonzero b => Sys2Proof.Machine.execReservedNopNonzero b s
  | .reservedRetNonzero b => Sys2Proof.Machine.execReservedRetNonzero b s
  | .imm h => Sys2Proof.Machine.execImm h s
  | .movRR d r => Sys2Proof.Machine.execMovRR d r s
  | .addRR d r => Sys2Proof.Machine.execAddRR d r s
  | .adcRR d r => Sys2Proof.Machine.execAdcRR d r s
  | .subRR d r => Sys2Proof.Machine.execSubRR d r s
  | .sbbRR d r => Sys2Proof.Machine.execSbbRR d r s
  | .andRR d r => Sys2Proof.Machine.execAndRR d r s
  | .orRR d r => Sys2Proof.Machine.execOrRR d r s
  | .xorRR d r => Sys2Proof.Machine.execXorRR d r s
  | .mulRR d r => Sys2Proof.Machine.execMulRR d r s
  | .muluRR d r => Sys2Proof.Machine.execMuluRR d r s
  | .rrnRR d r => Sys2Proof.Machine.execRrnRR d r s
  | .rlnRR d r => Sys2Proof.Machine.execRlnRR d r s
  | .cmpRR d r => Sys2Proof.Machine.execCmpRR d r s
  | .testRR d r => Sys2Proof.Machine.execTestRR d r s
  | .umuluRR d r => Sys2Proof.Machine.execUmuluRR d r s
  | .bswapRR d r => Sys2Proof.Machine.execBswapRR d r s
  | .movRI d lo => Sys2Proof.Machine.execMovRI d lo s
  | .addRI d lo => Sys2Proof.Machine.execAddRI d lo s
  | .adcRI d lo => Sys2Proof.Machine.execAdcRI d lo s
  | .subRI d lo => Sys2Proof.Machine.execSubRI d lo s
  | .sbbRI d lo => Sys2Proof.Machine.execSbbRI d lo s
  | .andRI d lo => Sys2Proof.Machine.execAndRI d lo s
  | .orRI d lo => Sys2Proof.Machine.execOrRI d lo s
  | .xorRI d lo => Sys2Proof.Machine.execXorRI d lo s
  | .mulRI d lo => Sys2Proof.Machine.execMulRI d lo s
  | .muluRI d lo => Sys2Proof.Machine.execMuluRI d lo s
  | .reservedClass3Op10 d lo => Sys2Proof.Machine.execReservedClass3Op10 d lo s
  | .reservedClass3Op11 d lo => Sys2Proof.Machine.execReservedClass3Op11 d lo s
  | .cmpRI d lo => Sys2Proof.Machine.execCmpRI d lo s
  | .testRI d lo => Sys2Proof.Machine.execTestRI d lo s
  | .umuluRI d lo => Sys2Proof.Machine.execUmuluRI d lo s
  | .reservedClass3Op15 d lo => Sys2Proof.Machine.execReservedClass3Op15 d lo s
  | .bz r lo => Sys2Proof.Machine.execBz r lo s
  | .bnz r lo => Sys2Proof.Machine.execBnz r lo s
  | .bs r lo => Sys2Proof.Machine.execBs r lo s
  | .bns r lo => Sys2Proof.Machine.execBns r lo s
  | .bc r lo => Sys2Proof.Machine.execBc r lo s
  | .bnc r lo => Sys2Proof.Machine.execBnc r lo s
  | .bv r lo => Sys2Proof.Machine.execBv r lo s
  | .bnv r lo => Sys2Proof.Machine.execBnv r lo s
  | .blt r lo => Sys2Proof.Machine.execBlt r lo s
  | .ble r lo => Sys2Proof.Machine.execBle r lo s
  | .bgt r lo => Sys2Proof.Machine.execBgt r lo s
  | .bge r lo => Sys2Proof.Machine.execBge r lo s
  | .bleu r lo => Sys2Proof.Machine.execBleu r lo s
  | .bgtu r lo => Sys2Proof.Machine.execBgtu r lo s
  | .ba r lo => Sys2Proof.Machine.execBa r lo s
  | .bl r lo => Sys2Proof.Machine.execBl r lo s
  | .movCc cond d r => Sys2Proof.Machine.execMovCc cond d r s
  | .movZ d r => Sys2Proof.Machine.execMovZ d r s
  | .movNz d r => Sys2Proof.Machine.execMovNz d r s
  | .movS d r => Sys2Proof.Machine.execMovS d r s
  | .movNs d r => Sys2Proof.Machine.execMovNs d r s
  | .movC d r => Sys2Proof.Machine.execMovC d r s
  | .movNc d r => Sys2Proof.Machine.execMovNc d r s
  | .movV d r => Sys2Proof.Machine.execMovV d r s
  | .movNv d r => Sys2Proof.Machine.execMovNv d r s
  | .movLt d r => Sys2Proof.Machine.execMovLt d r s
  | .movLe d r => Sys2Proof.Machine.execMovLe d r s
  | .movGt d r => Sys2Proof.Machine.execMovGt d r s
  | .movGe d r => Sys2Proof.Machine.execMovGe d r s
  | .movLeu d r => Sys2Proof.Machine.execMovLeu d r s
  | .movGtu d r => Sys2Proof.Machine.execMovGtu d r s
  | .movA d r => Sys2Proof.Machine.execMovA d r s
  | .movL d r => Sys2Proof.Machine.execMovL d r s
  | .class6Word dir rx rl => Sys2Proof.Machine.execClass6Word dir rx rl s
  | .movX dir rx rl => Sys2Proof.Machine.execMovX dir rx rl s
  | .addX dir rx rl => Sys2Proof.Machine.execAddX dir rx rl s
  | .adcX dir rx rl => Sys2Proof.Machine.execAdcX dir rx rl s
  | .subX dir rx rl => Sys2Proof.Machine.execSubX dir rx rl s
  | .sbbX dir rx rl => Sys2Proof.Machine.execSbbX dir rx rl s
  | .andX dir rx rl => Sys2Proof.Machine.execAndX dir rx rl s
  | .orX dir rx rl => Sys2Proof.Machine.execOrX dir rx rl s
  | .xorX dir rx rl => Sys2Proof.Machine.execXorX dir rx rl s
  | .mulX dir rx rl => Sys2Proof.Machine.execMulX dir rx rl s
  | .muluX dir rx rl => Sys2Proof.Machine.execMuluX dir rx rl s
  | .rrnX dir rx rl => Sys2Proof.Machine.execRrnX dir rx rl s
  | .rlnX dir rx rl => Sys2Proof.Machine.execRlnX dir rx rl s
  | .cmpX dir rx rl => Sys2Proof.Machine.execCmpX dir rx rl s
  | .testX dir rx rl => Sys2Proof.Machine.execTestX dir rx rl s
  | .umuluX dir rx rl => Sys2Proof.Machine.execUmuluX dir rx rl s
  | .bswapX dir rx rl => Sys2Proof.Machine.execBswapX dir rx rl s
  | .uld idx reg => Sys2Proof.Machine.execUld idx reg s
  | .uldb idx reg => Sys2Proof.Machine.execUldb idx reg s
  | .uldbsx idx reg => Sys2Proof.Machine.execUldbsx idx reg s
  | .ust idx reg => Sys2Proof.Machine.execUst idx reg s
  | .reservedClass7Flg5 idx reg => Sys2Proof.Machine.execReservedClass7Flg5 idx reg s
  | .ustb idx reg => Sys2Proof.Machine.execUstb idx reg s
  | .ldbsx idx reg lo => Sys2Proof.Machine.execLdbsx idx reg lo s
  | .class9Word d a b => Sys2Proof.Machine.execClass9Word d a b s
  | .movT cond d a b => Sys2Proof.Machine.execMovT cond d a b s
  | .addT cond d a b => Sys2Proof.Machine.execAddT cond d a b s
  | .adcT cond d a b => Sys2Proof.Machine.execAdcT cond d a b s
  | .subT cond d a b => Sys2Proof.Machine.execSubT cond d a b s
  | .sbbT cond d a b => Sys2Proof.Machine.execSbbT cond d a b s
  | .andT cond d a b => Sys2Proof.Machine.execAndT cond d a b s
  | .orT cond d a b => Sys2Proof.Machine.execOrT cond d a b s
  | .xorT cond d a b => Sys2Proof.Machine.execXorT cond d a b s
  | .mulT cond d a b => Sys2Proof.Machine.execMulT cond d a b s
  | .muluT cond d a b => Sys2Proof.Machine.execMuluT cond d a b s
  | .rrnT cond d a b => Sys2Proof.Machine.execRrnT cond d a b s
  | .rlnT cond d a b => Sys2Proof.Machine.execRlnT cond d a b s
  | .cmpT cond d a b => Sys2Proof.Machine.execCmpT cond d a b s
  | .testT cond d a b => Sys2Proof.Machine.execTestT cond d a b s
  | .umuluT cond d a b => Sys2Proof.Machine.execUmuluT cond d a b s
  | .bswapT cond d a b => Sys2Proof.Machine.execBswapT cond d a b s
  | .ldb idx reg lo => Sys2Proof.Machine.execLdb idx reg lo s
  | .stb idx reg lo => Sys2Proof.Machine.execStb idx reg lo s
  | .ld idx reg lo => Sys2Proof.Machine.execLd idx reg lo s
  | .st idx reg lo => Sys2Proof.Machine.execSt idx reg lo s
  | .inPort rp rv lo => Sys2Proof.Machine.execInPort rp rv lo s
  | .outPort rp rv lo => Sys2Proof.Machine.execOutPort rp rv lo s

end Sys2Proof.Machine
end

