-- ==== Sys2Proof/Machine/Step.lean ====
section
/-! DEFINITION. One step of the core (R320), and how the host places an instruction for the next step. -/

namespace Sys2Proof.Machine

/-- One step (R320): the interrupt if IE = 1 and irq = 1, else nothing while the core sleeps, else the instruction at pc. -/
def step (s : State) : Host.Outcome State Fault Refusal :=
  if s.interruptTaken then .next (interruptEntry s.pollIrq)
  else if s.sleeping then .next s.pollIrq
  else andThen (fetchWord s) fun w => exec (decodeWord w) s.pollIrq

/-- `s` with the instruction whose bits are `w` placed so that the next step runs it: its word at pc (made even), the core awake,
and no interrupt at that step. The two words of a pair are run one at a time (R80), so for a pair the second word is placed and
the immediate register holds what the first word loads into it. -/
def State.withFetchWord (s : State) (nbits w : Nat) : State :=
  let first : Word := BitVec.ofNat 16 w
  let second : Word := BitVec.ofNat 16 (w / 65536)
  let at_ : Word := s.pc &&& 0xFFFE
  let ready : State := { s with pc := at_, sleeping := false, irqIn := if s.ie then false :: s.irqIn.tail else s.irqIn }
  match (if nbits ≤ 16 then none else decodePair first second) with
  | some _ => { ready.loadCode at_ second with immhi := low12 first }
  | none => ready.loadCode at_ first

end Sys2Proof.Machine
end

