-- ==== Sys2Proof/Safety.lean ====
section
/-! DEFINITION. The terms in which claims speak of the machine: the invariant of the state, where a step goes on, and what a
state keeps of another. -/

namespace Sys2Proof.Machine

/-- The state is in canonical form: M lists only addresses below 2^16 (R50), as does the code memory, and the memories are
canonical; and register 0 holds the zero it reads as under R0_ZERO (R21). -/
def State.Inv (s : State) : Prop :=
  s.mem.wf = true ∧ (∀ e ∈ s.mem, e.1 < 65536) ∧ s.code.wf = true ∧ (∀ e ∈ s.code, e.1 < 65536) ∧ s.upper.wf = true ∧
    (s.params.r0Zero = true → s.regs[0] = 0)

/-- The step from `s` is `t`. -/
def State.StepsTo (s t : State) : Prop := step s = .next t

/-- `t` is reached from `s` in some number of steps, none of which stops. -/
inductive State.Reaches : State → State → Prop where
  | here (s : State) : State.Reaches s s
  | step {s t u : State} : s.StepsTo t → State.Reaches t u → State.Reaches s u

/-! ### Bytes and words under the parameters -/

/-- The byte of a word at its even address, as a number: the lower one with ENDIAN little, the upper one with big (R51). -/
def Params.firstByte (p : Params) (v : Word) : Nat :=
  match p.endian with
  | .little => v.toNat % 256
  | .big => v.toNat / 256

/-- The byte of a word at the odd address after it, as a number (R51). -/
def Params.secondByte (p : Params) (v : Word) : Nat :=
  match p.endian with
  | .little => v.toNat / 256
  | .big => v.toNat % 256

/-- What LDB and ULDB leave in a register that held `old`, as a number: the byte, or the byte below the old upper byte in the other
reading (R289, U6). -/
def Params.byteLoaded (p : Params) (old : Word) (b : Nat) : Nat :=
  match p.byteLoadFill with
  | .zero => b
  | .keep => old.toNat / 256 * 256 + b

/-! ### What `t` keeps of `s` -/

/-- Every register reads as before. -/
def State.SameRegs (s t : State) : Prop := ∀ j : RegNum, t.readReg j = s.readReg j

/-- x[d] reads `v` and every other register as before; with d = 0 under R0_ZERO the write is discarded (R9, R21). -/
def State.WroteReg (s t : State) (d : RegNum) (v : Word) : Prop :=
  ∀ j : RegNum, t.readReg j = if j = d ∧ s.discards d = false then v else s.readReg j

/-- Every byte of main memory reads as before. -/
def State.SameMem (s t : State) : Prop := ∀ a : Nat, t.mem.read a = s.mem.read a

/-- Every byte of the upper banks reads as before. -/
def State.SameUpper (s t : State) : Prop := ∀ a : Nat, t.upper.read a = s.upper.read a

/-- No port was accessed. -/
structure State.SamePorts (s t : State) : Prop where
  portIn : t.portIn = s.portIn
  portTaken : t.portTaken = s.portTaken
  events : t.events = s.events

/-- What no instruction and no step changes, by the model's choice: the platform's record (log entry 9), the parameters (log entry 31) and
the code memory (log entry 21). -/
structure State.SameSetup (s t : State) : Prop where
  platform : t.platform = s.platform
  params : t.params = s.params
  code : t.code = s.code

/-- No sample of irq was taken, and the setup is the same. -/
structure State.SameInputs (s t : State) : Prop where
  irqIn : t.irqIn = s.irqIn
  irqTaken : t.irqTaken = s.irqTaken
  setup : s.SameSetup t

/-- IE and the sleep state are as before. -/
structure State.SameMode (s t : State) : Prop where
  ie : t.ie = s.ie
  sleeping : t.sleeping = s.sleeping

/-- The interrupt shadow registers are as before. -/
structure State.SameContext (s t : State) : Prop where
  sImmhi : t.sImmhi = s.sImmhi
  sFlags : t.sFlags = s.sFlags

/-- Everything but the registers, pc, the flags and the immediate register is as before. -/
structure State.SameRest (s t : State) : Prop where
  mem : s.SameMem t
  upper : s.SameUpper t
  ports : s.SamePorts t
  inputs : s.SameInputs t
  mode : s.SameMode t
  context : s.SameContext t

/-- The end of an instruction that transfers no control: pc at the next instruction, the immediate register cleared (R26, R31). -/
structure State.MovesOn (s t : State) : Prop where
  pc : t.pc = s.pc + 2
  immhi : t.immhi = 0

/-- The effect of an ALU operation on `t`: its result in x[d] where it writes one, its flags, and nothing else (R187). -/
structure State.AluDone (s t : State) (op : AluOp) (d : RegNum) (a b : Word) : Prop where
  reg : (alu s.params op a b s.flags).written = true → s.WroteReg t d (alu s.params op a b s.flags).result
  noReg : (alu s.params op a b s.flags).written = false → s.SameRegs t
  flags : t.flags = (alu s.params op a b s.flags).flags
  moves : s.MovesOn t
  rest : s.SameRest t

/-- The effect of a one-bit shift or rotate on `t`: `v` in x[r], and where FLAG_RULES writes them C the bit that left the register, Z
and S of `v`; V stays (R126). -/
structure State.ShiftDone (s t : State) (r : RegNum) (v : Word) (out : Bool) : Prop where
  reg : s.WroteReg t r v
  flags : t.flags =
    { z := if s.params.flagRules.shift.z then v == 0 else s.flags.z
      c := if s.params.flagRules.shift.c then out else s.flags.c
      s := if s.params.flagRules.shift.s then v.msb else s.flags.s
      v := s.flags.v }
  moves : s.MovesOn t
  rest : s.SameRest t

/-- A load or a move into x[d] on `t`: the value, the end of the instruction, and nothing else. -/
structure State.MoveDone (s t : State) (d : RegNum) (v : Word) : Prop where
  reg : s.WroteReg t d v
  flags : t.flags = s.flags
  moves : s.MovesOn t
  rest : s.SameRest t

/-- Only the end of the instruction: no register, no flag, nothing else (R121, R267). -/
structure State.NothingDone (s t : State) : Prop where
  regs : s.SameRegs t
  flags : t.flags = s.flags
  moves : s.MovesOn t
  rest : s.SameRest t

end Sys2Proof.Machine
end

