-- ==== Sys2Proof/Certificates/Slice0/Obligations.lean ====
section
/-! DEFINITION. The statements for the provers. Where a docstring says "the spec's own decision D<n>", the clause rests on a choice
that the spec marks as its own (92_eei_decisions.md), which the log entry named beside it records; it is no statement of the
source. A statement that needs the spec's value of a parameter (R6) says so in a premise; the others hold for every value of the
parameters, and "the spec's value" is that of `Params.spec`. `State.MovesOn`, `State.SameRest` and the other terms are those
of Sys2Proof/Safety.lean; a frame among them takes in the model's own fields, which log entries 7, 8, 9, 21 and 31 describe. -/

open Sys2Proof Sys2Proof.Machine

/-! ### Class 0 -/

/-- NOP (R121): it clears the immediate register and advances pc, and nothing else changes; its word is 0x0000, every other word
of sub-class 0 is a reserved row, and a prefix before it is lost. Constructor: nop. -/
def Obligations.NopOnlyAdvances : Prop :=
  decodeWord 0x0000 = .nop ∧
  (∀ n : BitVec 8, n ≠ 0 → decodeWord (0x00#8 ++ n) = .reservedNopNonzero n) ∧
  (∀ s, ∃ t, exec .nop s = .next t ∧ s.NothingDone t) ∧
  (∀ h s, ∃ t u, exec (.imm h) s = .next t ∧ exec .nop t = .next u ∧ u.immhi = 0)

/-- RET (R122) and, with BL (R247), a call and its return. LR is x[LR_INDEX], x[15] by the spec's own decision D9 (log entry 12). A
routine that keeps LR returns to the word after the BL, where LR is a register that keeps what is written. Constructors: ret, bl. -/
def Obligations.ReturnThroughLink : Prop :=
  Params.spec.lrIndex = 15#7 ∧
  (∀ s, ∃ t, exec .ret s = .next t ∧ t.pc = s.readReg s.params.lrIndex ∧ t.immhi = 0 ∧ t.flags = s.flags ∧ s.SameRegs t ∧
    s.SameRest t) ∧
  (∀ r lo s, ∃ t, exec (.bl r lo) s = .next t ∧ t.pc = branchTarget s r lo ∧ s.WroteReg t s.params.lrIndex (s.pc + 2) ∧
    t.immhi = 0 ∧ t.flags = s.flags ∧ s.SameRest t ∧
    (s.discards s.params.lrIndex = false →
      ∀ u : State, u.params = t.params → u.readReg u.params.lrIndex = t.readReg t.params.lrIndex →
        ∃ v, exec .ret u = .next v ∧ v.pc = s.pc + 2))

/-- IRET (R123, R327): pc from ILR, the immediate register and the flags from the shadow registers, IE set. ILR is x[ILR_INDEX], x[14],
and IE is set: the spec's own decisions D9, D25 (log entries 12, 24). Constructor: iret. -/
def Obligations.InterruptReturn : Prop :=
  Params.spec.ilrIndex = 14#7 ∧
  ∀ s, ∃ t, exec .iret s = .next t ∧ t.pc = s.readReg s.params.ilrIndex ∧ t.immhi = s.sImmhi ∧
    t.flags = { z := s.sFlags.getLsbD 3, c := s.sFlags.getLsbD 2, s := s.sFlags.getLsbD 1, v := s.sFlags.getLsbD 0 } ∧
    t.ie = true ∧ t.sleeping = s.sleeping ∧ s.SameRegs t ∧ s.SameContext t ∧ s.SameMem t ∧ s.SameUpper t ∧ s.SamePorts t ∧
    s.SameInputs t

/-- STIX (R124): the register gets the saved immediate in bits 15:4 and the saved flags in bits 3:0; bits 7:4 of its word are
ignored. With REG = 0 under R0_ZERO the value is discarded (R21): general knowledge, not in the source, by the spec's own words (D8,
log entry 11, PRESUMED). Constructor: stix. -/
def Obligations.StixReadsContext : Prop :=
  (∀ x r : BitVec 4, decodeWord (0x02#8 ++ x ++ r) = .stix r) ∧
  ∀ r s, ∃ t, exec (.stix r) s = .next t ∧ s.MoveDone t (low r) (s.sImmhi ++ s.sFlags)

/-- RSIX (R125): the shadow registers from the register; neither a register, a live flag nor anything else changes; bits 7:4 of its
word are ignored. Constructor: rsix. -/
def Obligations.RsixWritesContext : Prop :=
  (∀ x r : BitVec 4, decodeWord (0x03#8 ++ x ++ r) = .rsix r) ∧
  ∀ r s, ∃ t, exec (.rsix r) s = .next t ∧
    t.sImmhi = (s.readReg (low r)).extractLsb' 4 12 ∧ t.sFlags = (s.readReg (low r)).extractLsb' 0 4 ∧
    s.SameRegs t ∧ t.flags = s.flags ∧ s.MovesOn t ∧ s.SameMem t ∧ s.SameUpper t ∧ s.SamePorts t ∧ s.SameInputs t ∧ s.SameMode t

/-- CC, SC, CZ, SZ, CS, SS (R134 to R139): each sets or clears its one flag; the other flags, the registers and everything else
stay. That the REG field is ignored is said of CC alone in R134; of the others it is R93, the spec's own decision D32 (log entry 22).
Constructors: cc, sc, cz, sz, cs, ss. -/
def Obligations.FlagSetAndClear : Prop :=
  (∀ r : BitVec 4, decodeWord (0x047#12 ++ r) = .cc ∧ decodeWord (0x048#12 ++ r) = .sc ∧ decodeWord (0x049#12 ++ r) = .cz ∧
    decodeWord (0x04A#12 ++ r) = .sz ∧ decodeWord (0x04B#12 ++ r) = .cs ∧ decodeWord (0x04C#12 ++ r) = .ss) ∧
  ∀ s : State, ∀ p ∈ [(Instr.cc, { s.flags with c := false }), (.sc, { s.flags with c := true }),
      (.cz, { s.flags with z := false }), (.sz, { s.flags with z := true }),
      (.cs, { s.flags with s := false }), (.ss, { s.flags with s := true })],
    ∃ t, exec p.1 s = .next t ∧ t.flags = p.2 ∧ s.SameRegs t ∧ s.MovesOn t ∧ s.SameRest t ∧
      (p.1 = .sz → Cond.z.holds t.flags = true) ∧ (p.1 = .ss → Cond.s.holds t.flags = true)

/-- STF and RSF (R140, R141): the flags to and from bits 3:0 of a register in the order Z, C, S, V. The layout and the zeros above it:
the spec's own decision D18 (log entry 25). RSF after STF of the same register gives the flags back, where the register keeps what is
written (R21). Constructors: stf, rsf. -/
def Obligations.FlagsThroughRegister : Prop :=
  (∀ r s, ∃ t v, exec (.stf r) s = .next t ∧ s.MoveDone t (low r) v ∧
    v.toNat = 8 * s.flags.z.toNat + 4 * s.flags.c.toNat + 2 * s.flags.s.toNat + s.flags.v.toNat) ∧
  (∀ r s, ∃ t, exec (.rsf r) s = .next t ∧
    t.flags = { z := (s.readReg (low r)).getLsbD 3, c := (s.readReg (low r)).getLsbD 2, s := (s.readReg (low r)).getLsbD 1,
                v := (s.readReg (low r)).getLsbD 0 } ∧
    s.SameRegs t ∧ s.MovesOn t ∧ s.SameRest t) ∧
  (∀ r s t, s.discards (low r) = false → exec (.stf r) s = .next t →
    ∀ u : State, u.readReg (low r) = t.readReg (low r) → ∃ v, exec (.rsf r) u = .next v ∧ v.flags = s.flags)

/-- The seven shifts and rotates (R126 to R133): one bit, in place; C gets the bit that leaves, Z and S are of the result, V stays;
through carry they turn the 17 bits of C and the register. Amount, and the flags that the spec's FLAG_RULES have them write: the
spec's own decision D15 (log entry 14).
Constructors: asr, lsr, lsl, rolc, rorc, rol, ror. -/
def Obligations.ShiftsAndRotates : Prop :=
  FlagRules.spec.shift = { z := true, c := true, s := true } ∧
  ∀ (r : LowReg) (s : State) (a : Word), a = s.readReg (low r) →
    (∃ t, exec (.asr r) s = .next t ∧ s.ShiftDone t (low r) (a.sshiftRight 1) (a.getLsbD 0)) ∧
    (∃ t, exec (.lsr r) s = .next t ∧ s.ShiftDone t (low r) (a >>> 1) (a.getLsbD 0)) ∧
    (∃ t, exec (.lsl r) s = .next t ∧ s.ShiftDone t (low r) (a <<< 1) (a.getLsbD 15)) ∧
    (∃ t v, exec (.rolc r) s = .next t ∧ s.ShiftDone t (low r) v (a.getLsbD 15) ∧
      v.toNat = (2 * a.toNat + s.flags.c.toNat) % 65536) ∧
    (∃ t v, exec (.rorc r) s = .next t ∧ s.ShiftDone t (low r) v (a.getLsbD 0) ∧
      v.toNat = (65536 * s.flags.c.toNat + a.toNat) / 2) ∧
    (∃ t, exec (.rol r) s = .next t ∧ s.ShiftDone t (low r) (a.rotateLeft 1) (a.getLsbD 15)) ∧
    (∃ t, exec (.ror r) s = .next t ∧ s.ShiftDone t (low r) (a.rotateRight 1) (a.getLsbD 0))

/-- CLI and STI (R144, R145): IE alone changes; bits 7:1 of the word are ignored. After STI with irq up the next step is the entry,
with the address of the instruction after STI in ILR and that instruction not run (R324): the spec's own decisions D9, D24, D38
(log entries 12, 24). Constructors: cli, sti. -/
def Obligations.InterruptEnable : Prop :=
  (∀ x : BitVec 7, decodeWord (0x06#8 ++ x ++ 0#1) = .cli ∧ decodeWord (0x06#8 ++ x ++ 1#1) = .sti) ∧
  (∀ s : State, ∀ p ∈ [(Instr.cli, false), (.sti, true)],
    ∃ t, exec p.1 s = .next t ∧ t.ie = p.2 ∧ t.sleeping = s.sleeping ∧ t.flags = s.flags ∧ s.SameRegs t ∧ s.MovesOn t ∧
      s.SameContext t ∧ s.SameMem t ∧ s.SameUpper t ∧ s.SamePorts t ∧ s.SameInputs t) ∧
  (∀ s t, exec .sti s = .next t → t.irqLevel = true →
    ∃ u, step t = .next u ∧ t.WroteReg u s.params.ilrIndex (s.pc + 2) ∧ u.pc = s.intVector ∧ u.ie = false)

/-- SLEEP (R146): the sleep state is entered, with pc at the instruction after it; nothing else changes; bits 7:0 of the word are
ignored. D27 (log entry 18). Constructor: sleep. -/
def Obligations.SleepEnters : Prop :=
  (∀ x : BitVec 8, decodeWord (0x07#8 ++ x) = .sleep) ∧
  ∀ s, ∃ t, exec .sleep s = .next t ∧ t.sleeping = true ∧ t.ie = s.ie ∧ t.flags = s.flags ∧ s.SameRegs t ∧ s.MovesOn t ∧
    s.SameContext t ∧ s.SameMem t ∧ s.SameUpper t ∧ s.SamePorts t ∧ s.SameInputs t

/-! ### Class 1 -/

/-- IMM (R160, R161): the 12 bits are loaded, a second IMM overwrites the first, and the next class 3 MOV sees the 16-bit value.
Lifetime and assembly of the immediate: the spec's own decisions D5, D6 (log entry 23). Constructor: imm. -/
def Obligations.ImmLoadsPrefix : Prop :=
  (∀ h s, ∃ t, exec (.imm h) s = .next t ∧ t.immhi = h ∧ t.pc = s.pc + 2 ∧ t.flags = s.flags ∧ s.SameRegs t ∧ s.SameRest t) ∧
  (∀ h h' d lo s, ∃ t u v, exec (.imm h) s = .next t ∧ exec (.imm h') t = .next u ∧ u.immhi = h' ∧
    exec (.movRI d lo) u = .next v ∧ s.WroteReg v (low d) (h' ++ lo) ∧ v.immhi = 0)

/-- The immediate register lasts for one instruction (R31): after any instruction but IMM and IRET it is zero. D5 (log entry 23). -/
def Obligations.PrefixLastsOneInstruction : Prop :=
  ∀ i s t, exec i s = .next t → (∀ h, i ≠ .imm h) → i ≠ .iret → t.immhi = 0

/-! ### Classes 2 and 3, the ALU -/

/-- Class 2 (R187): the sixteen words 0x2ods are the sixteen operations; each takes both inputs from the registers before it writes,
writes its result where the operation does and its flags, and ignores the immediate register; under R0_ZERO DEST = 0 discards the
result but not the flags; with DEST = SRC, ADD doubles, SUB and XOR give 0, and by the spec's FLAG_RULES they set Z and CMP gives Z 1,
C 0, S 0, V 0. Register 0 and the flags: the spec's own decisions D8, D11 (log entries 11, 14). Constructors: movRR, addRR, adcRR,
subRR, sbbRR, andRR, orRR, xorRR, mulRR, muluRR, rrnRR, rlnRR, cmpRR, testRR, umuluRR, bswapRR. -/
def Obligations.ClassTwoAlu : Prop :=
  (∀ op d r, decodeWord (0x2#4 ++ op.toBits ++ d ++ r) = Instr.class2 op d r) ∧
  (∀ op d r s, ∃ t, exec (Instr.class2 op d r) s = .next t ∧
    s.AluDone t op (low d) (s.readReg (low d)) (s.readReg (low r))) ∧
  (∀ d s, ∃ t, exec (.addRR d d) s = .next t ∧ s.WroteReg t (low d) (2 * s.readReg (low d))) ∧
  (∀ d s, ∃ t, exec (.subRR d d) s = .next t ∧ s.WroteReg t (low d) 0 ∧
    (s.params.flagRules = FlagRules.spec → t.flags.z = true)) ∧
  (∀ d s, ∃ t, exec (.xorRR d d) s = .next t ∧ s.WroteReg t (low d) 0 ∧
    (s.params.flagRules = FlagRules.spec → t.flags.z = true)) ∧
  (∀ d s, ∃ t, exec (.cmpRR d d) s = .next t ∧
    (s.params.flagRules = FlagRules.spec → t.flags = { z := true, c := false, s := false, v := false }))

/-- Class 3 (R204): the thirteen operations with an immediate take B from the immediate register and IMM LO, so that an IMM before
them gives all 16 bits and none gives 0 to 15. D6 (log entry 23). Constructors: movRI, addRI, adcRI, subRI, sbbRI, andRI, orRI,
xorRI, mulRI, muluRI, cmpRI, testRI, umuluRI. -/
def Obligations.ClassThreeAlu : Prop :=
  (∀ op d lo, decodeWord (0x3#4 ++ op.toBits ++ d ++ lo) = Instr.class3 op d lo) ∧
  (∀ op d lo s, op ≠ .rrn → op ≠ .rln → op ≠ .bswap →
    ∃ t, exec (Instr.class3 op d lo) s = .next t ∧ s.AluDone t op (low d) (s.readReg (low d)) (s.immhi ++ lo)) ∧
  (∀ (lo : Imm4) (s : State), s.immhi = 0 → (s.immhi ++ lo).toNat = lo.toNat)

/-- add and adc (R172, R173): the sum modulo 2^16; C is the carry out of bit 15, V the signed overflow, Z and S of the result; adc
adds C. The flags are those of the spec's FLAG_RULES, its own decision D11 (log entry 14). -/
def Obligations.AddFlags : Prop :=
  ∀ (p : Params) (a b : Word) (f : Flags),
    ((alu p .add a b f).written = true ∧ (alu p .add a b f).result = a + b) ∧
    ((alu p .adc a b f).written = true ∧ (alu p .adc a b f).result.toNat = (a.toNat + b.toNat + f.c.toNat) % 65536) ∧
    (p.flagRules = FlagRules.spec →
      (alu p .add a b f).flags =
        { z := a + b == 0, c := decide (65536 ≤ a.toNat + b.toNat), s := (a + b).msb,
          v := a.msb == b.msb && (a + b).msb != a.msb } ∧
      (alu p .adc a b f).flags.z = ((alu p .adc a b f).result == 0) ∧
      ((alu p .adc a b f).flags.c = true ↔ 65536 ≤ a.toNat + b.toNat + f.c.toNat) ∧
      (alu p .adc a b f).flags.s = (alu p .adc a b f).result.getLsbD 15 ∧
      ((alu p .adc a b f).flags.v = true ↔
        a.toInt + b.toInt + f.c.toNat < -32768 ∨ 32767 < a.toInt + b.toInt + f.c.toNat))

/-- sub, sbb and cmp (R174, R175, R183): the difference modulo 2^16; C is the borrow, V the signed overflow, Z and S of the result;
sbb subtracts C too; cmp has the flags of sub and writes no register. The flags are those of the spec's FLAG_RULES, its own decision
D11 (log entry 14). -/
def Obligations.SubtractFlags : Prop :=
  ∀ (p : Params) (a b : Word) (f : Flags),
    ((alu p .sub a b f).written = true ∧ (alu p .sub a b f).result = a - b) ∧ (alu p .cmp a b f).written = false ∧
    ((alu p .sbb a b f).written = true ∧
      (alu p .sbb a b f).result.toNat = (a.toNat + 2 * 65536 - b.toNat - f.c.toNat) % 65536) ∧
    (p.flagRules = FlagRules.spec →
      (alu p .sub a b f).flags =
        { z := a - b == 0, c := decide (a.toNat < b.toNat), s := (a - b).msb,
          v := a.msb != b.msb && (a - b).msb != a.msb } ∧
      (alu p .cmp a b f).flags = (alu p .sub a b f).flags ∧
      (alu p .sbb a b f).flags.z = ((alu p .sbb a b f).result == 0) ∧
      ((alu p .sbb a b f).flags.c = true ↔ a.toNat < b.toNat + f.c.toNat) ∧
      (alu p .sbb a b f).flags.s = (alu p .sbb a b f).result.getLsbD 15 ∧
      ((alu p .sbb a b f).flags.v = true ↔
        a.toInt - b.toInt - f.c.toNat < -32768 ∨ 32767 < a.toInt - b.toInt - f.c.toNat))

/-- and, or, xor and test (R176, R177, R178, R184): bit by bit, Z and S of the result, C and V kept; test has the flags of and and
writes no register. The flags are those of the spec's FLAG_RULES, its own decision D11 (log entry 14). -/
def Obligations.LogicFlags : Prop :=
  ∀ (p : Params) (a b : Word) (f : Flags),
    (∀ i, (alu p .and a b f).result.getLsbD i = (a.getLsbD i && b.getLsbD i) ∧
      (alu p .or a b f).result.getLsbD i = (a.getLsbD i || b.getLsbD i) ∧
      (alu p .xor a b f).result.getLsbD i = (a.getLsbD i != b.getLsbD i)) ∧
    (∀ op ∈ [AluOp.and, .or, .xor], (alu p op a b f).written = true) ∧ (alu p .test a b f).written = false ∧
    (p.flagRules = FlagRules.spec →
      (∀ op ∈ [AluOp.and, .or, .xor], (alu p op a b f).flags =
        { z := (alu p op a b f).result == 0, c := f.c, s := (alu p op a b f).result.getLsbD 15, v := f.v }) ∧
      (alu p .test a b f).flags = (alu p .and a b f).flags)

/-- mul, mulu and umulu (R179, R180, R185): umulu and mul are the two halves of the unsigned product, mulu and mul those of the
signed one, or of the signed by unsigned one in the other reading of mulu (U20); by the spec's FLAG_RULES Z and S of the half written,
C and V kept. The two readings of mulu and the flags: the spec's own decisions D16, D11 (log entries 15, 14). -/
def Obligations.MultiplyHalves : Prop :=
  ∀ (p : Params) (a b : Word) (f : Flags),
    65536 * (alu p .umulu a b f).result.toNat + (alu p .mul a b f).result.toNat = a.toNat * b.toNat ∧
    (p.muluReading = .signedSigned →
      65536 * (alu p .mulu a b f).result.toInt + ((alu p .mul a b f).result.toNat : Int) = a.toInt * b.toInt) ∧
    (p.muluReading = .signedUnsigned →
      65536 * (alu p .mulu a b f).result.toInt + ((alu p .mul a b f).result.toNat : Int) = a.toInt * b.toNat) ∧
    ∀ op ∈ [AluOp.mul, .mulu, .umulu], (alu p op a b f).written = true ∧
      (p.flagRules = FlagRules.spec → (alu p op a b f).flags =
        { z := (alu p op a b f).result == 0, c := f.c, s := (alu p op a b f).result.getLsbD 15, v := f.v })

/-- mov, rrn, rln and bswap (R171, R181, R182, R186): B itself, B turned right or left by one nibble, B with its bytes exchanged; by
the spec's FLAG_RULES no flag. That the operand is B and the nibble rotation is over 16 bits, and that no flag is written: the spec's
own decisions D17, D11 (log entries 25, 14). -/
def Obligations.TransfersAndPermutations : Prop :=
  ∀ (p : Params) (a b : Word) (f : Flags),
    (alu p .mov a b f).result = b ∧ (alu p .rrn a b f).result = b.rotateRight 4 ∧ (alu p .rln a b f).result = b.rotateLeft 4 ∧
    (alu p .bswap a b f).result.toNat = 256 * (b.toNat % 256) + b.toNat / 256 ∧
    (∀ op ∈ [AluOp.mov, .rrn, .rln, .bswap], (alu p op a b f).written = true ∧
      (p.flagRules = FlagRules.spec → (alu p op a b f).flags = f))

/-- After cmp A, B, by the spec's FLAG_RULES, the named conditions are the comparisons they name (R183, R230): equality, unsigned and
signed order. The formulas of conditions 8 to 13 are from general knowledge, not in the source (D12, log entry 17). -/
def Obligations.CompareOrderings : Prop :=
  ∀ (p : Params) (a b : Word) (f g : Flags), p.flagRules = FlagRules.spec → g = (alu p .cmp a b f).flags →
    (Cond.z.holds g = true ↔ a = b) ∧ (Cond.nz.holds g = true ↔ a ≠ b) ∧
    (Cond.c.holds g = true ↔ a.toNat < b.toNat) ∧ (Cond.nc.holds g = true ↔ b.toNat ≤ a.toNat) ∧
    (Cond.leu.holds g = true ↔ a.toNat ≤ b.toNat) ∧ (Cond.gtu.holds g = true ↔ b.toNat < a.toNat) ∧
    (Cond.lt.holds g = true ↔ a.toInt < b.toInt) ∧ (Cond.ge.holds g = true ↔ b.toInt ≤ a.toInt) ∧
    (Cond.le.holds g = true ↔ a.toInt ≤ b.toInt) ∧ (Cond.gt.holds g = true ↔ b.toInt < a.toInt)

/-! ### Classes 4 and 5 -/

/-- The sixteen conditions over the flags (R230), and their numbers (R88). Conditions 8 to 13 are from general knowledge, not in the
source, and 15 is "always": the spec's own decisions D12, D13 (log entry 17). -/
def Obligations.ConditionTable : Prop :=
  ∀ f : Flags, [0, 1, 2, 3, 4, 5, 6, 7, 8, 9, 10, 11, 12, 13, 14, 15].map (fun n => (Cond.ofBits (BitVec.ofNat 4 n)).holds f) =
    [f.z, !f.z, f.s, !f.s, f.c, !f.c, f.v, !f.v, f.s != f.v, f.z || (f.s != f.v), !f.z && (f.s == f.v), f.s == f.v,
     f.c || f.z, !f.c && !f.z, true, true]

/-- The branches but BL (R231 to R246): pc becomes x[REG] + {immhi, IMM LO} where the condition holds and goes on where it does not;
the immediate register is cleared either way, and nothing else changes. That the target is absolute and a byte address: the spec's
own decisions D1, D14 (log entry 26). Constructors: bz, bnz, bs, bns, bc, bnc, bv, bnv, blt, ble, bgt, bge, bleu, bgtu, ba. -/
def Obligations.Branches : Prop :=
  ∀ cond r lo s, cond ≠ .l →
    decodeWord (0x4#4 ++ cond.toBits ++ r ++ lo) = Instr.branch cond r lo ∧
    ∃ t, exec (Instr.branch cond r lo) s = .next t ∧
      t.pc = (if cond.holds s.flags = true then s.readReg (low r) + (s.immhi ++ lo) else s.pc + 2) ∧
      t.immhi = 0 ∧ t.flags = s.flags ∧ s.SameRegs t ∧ s.SameRest t

/-- BL (R247): the target is formed from the registers before the link is written, so that BL [r15] jumps to the old x[15] and then
overwrites it (R247). The link register x[LR_INDEX] and the order: the spec's own decisions D9, D14 (log entries 12, 27). Constructor:
bl. -/
def Obligations.BranchAndLink : Prop :=
  ∀ r lo s, decodeWord (0x4F#8 ++ r ++ lo) = .bl r lo ∧
    ∃ t, exec (.bl r lo) s = .next t ∧ t.pc = s.readReg (low r) + (s.immhi ++ lo) ∧
      s.WroteReg t s.params.lrIndex (s.pc + 2) ∧
      t.immhi = 0 ∧ t.flags = s.flags ∧ s.SameRest t

/-- Class 5 (R248): the move happens exactly where the condition holds; 14 and 15 always move and 15 writes no link; the sixteen
instances and MOV.cc with a condition field are one and the same. D13 (log entry 17). Constructors: movCc, movZ, movNz, movS,
movNs, movC, movNc, movV, movNv, movLt, movLe, movGt, movGe, movLeu, movGtu, movA, movL. -/
def Obligations.ConditionalMove : Prop :=
  ∀ cond d r s, decodeWord (0x5#4 ++ cond.toBits ++ d ++ r) = Instr.condMove cond d r ∧
    ∃ t, exec (Instr.condMove cond d r) s = .next t ∧ exec (.movCc cond d r) s = .next t ∧
      (cond.holds s.flags = true → s.MoveDone t (low d) (s.readReg (low r))) ∧
      (cond.holds s.flags = false → s.NothingDone t)

/-! ### Classes 6 and 9 -/

/-- The class 6 word and the sixteen operations it is (R260): destination and source by DIR, any of the 128 registers at RX, the
operation from immhi[3:0] whatever immhi[11:4] holds. Constructors: class6Word, movX, addX, adcX, subX, sbbX, andX, orX, xorX,
mulX, muluX, rrnX, rlnX, cmpX, testX, umuluX, bswapX. -/
def Obligations.ClassSixAlu : Prop :=
  (∀ rx rl, decodeWord (0x6#4 ++ 0#1 ++ rx ++ rl) = .class6Word .toRx rx rl ∧
    decodeWord (0x6#4 ++ 1#1 ++ rx ++ rl) = .class6Word .toRl rx rl) ∧
  (∀ op rx rl s, ∃ t, exec (Instr.class6 op .toRx rx rl) s = .next t ∧
    s.AluDone t op rx (s.readReg rx) (s.readReg (low rl))) ∧
  (∀ op rx rl s, ∃ t, exec (Instr.class6 op .toRl rx rl) s = .next t ∧
    s.AluDone t op (low rl) (s.readReg (low rl)) (s.readReg rx)) ∧
  (∀ op dir rx rl s, s.immhi.extractLsb' 0 4 = op.toBits →
    ∃ t, exec (.class6Word dir rx rl) s = .next t ∧ exec (Instr.class6 op dir rx rl) s = .next t)

/-- Only an instruction of class 6 can change x16 to x127 (R22), where LR_INDEX is below 16 as the spec has it (D9, log entry 12): no
other word of an encoding names them. Read from the field widths of the spec's tables (the spec's own derivation). -/
def Obligations.ExtendedRegistersOnlyByClassSix : Prop :=
  ∀ i s t, s.params.lrIndex.toNat < 16 → exec i s = .next t → (∀ w ∈ encode i, nibble3 w ≠ 0x6#4) →
    ∀ j : RegNum, 16 ≤ j.toNat → t.readReg j = s.readReg j

/-- The class 9 word and the sixteen operations it is (R265): where the condition of immhi[7:4] holds on the old flags, the operation
of immhi[3:0] on x[SRC1] and x[SRC2] into x[DEST]; where it does not, nothing but the end of the instruction. The spec's own
decisions D36, D37 (log entry 23). Constructors: class9Word, movT, addT, adcT, subT, sbbT, andT, orT, xorT, mulT, muluT, rrnT,
rlnT, cmpT, testT, umuluT, bswapT. -/
def Obligations.ClassNineAlu : Prop :=
  (∀ d a b, decodeWord (0x9#4 ++ d ++ a ++ b) = .class9Word d a b) ∧
  (∀ op cond d a b s, ∃ t, exec (Instr.class9 op cond d a b) s = .next t ∧
    (cond.holds s.flags = true → s.AluDone t op (low d) (s.readReg (low a)) (s.readReg (low b))) ∧
    (cond.holds s.flags = false → s.NothingDone t)) ∧
  (∀ op cond d a b s, s.immhi.extractLsb' 0 4 = op.toBits → s.immhi.extractLsb' 4 4 = cond.toBits →
    ∃ t, exec (.class9Word d a b) s = .next t ∧ exec (Instr.class9 op cond d a b) s = .next t)

/-- The two words of a row of class 6 or 9, run one after the other, do what the row does (R80, R92), with pc two words on; and such
a word with no prefix is MOV, of class 9 under the condition Z (R262, R268). D36 (log entries 4, 23). -/
def Obligations.PairRunsAsItsRow : Prop :=
  (∀ p w i s, decodePair p w = some i →
    ∃ t u, exec (decodeWord p) s = .next t ∧ exec (decodeWord w) t = .next u ∧ exec i t = .next u ∧ u.pc = s.pc + 4) ∧
  (∀ dir rx rl s, s.immhi = 0 → exec (.class6Word dir rx rl) s = exec (.movX dir rx rl) s) ∧
  (∀ d a b s, s.immhi = 0 → exec (.class9Word d a b) s = exec (.movT .z d a b) s)

/-! ### Addresses, memory, upper banks, ports -/

/-- Every address is a register plus the 16-bit immediate, modulo 2^16 (R61, R231, R280, R310); class 7 has the register alone
(R281). The wrap and the 16 bits: the spec's own decisions D6, D35 (log entries 23, 26). -/
def Obligations.EffectiveAddresses : Prop :=
  ∀ (s : State) (r : LowReg) (lo : Imm4),
    (effAddr s r lo).toNat = ((s.readReg (low r)).toNat + 16 * s.immhi.toNat + lo.toNat) % 65536 ∧
    branchTarget s r lo = effAddr s r lo ∧ portAddr s r lo = effAddr s r lo ∧ upperAddr s r = s.readReg (low r)

/-- LDBSX and LDB (R288, R289): one byte of M, extended by its sign, or by zeros (kept below the register's upper byte in the other
reading, U6); no alignment; where the platform admits the address. The zero fill and the load-only class 8: the spec's own decisions
D20, D19 (log entry 16). Constructors: ldbsx, ldb. -/
def Obligations.ByteLoads : Prop :=
  ∀ idx reg lo s, s.admitsMem (effAddr s idx lo) = true →
    (∃ t v, exec (.ldbsx idx reg lo) s = .next t ∧ s.MoveDone t (low reg) v ∧
      v.toInt = (s.mem.read (effAddr s idx lo).toNat).toInt) ∧
    (∃ t v, exec (.ldb idx reg lo) s = .next t ∧ s.MoveDone t (low reg) v ∧
      v.toNat = s.params.byteLoaded (s.readReg (low reg)) (s.mem.read (effAddr s idx lo).toNat).toNat)

/-- LD (R291): the word at an even address; where the platform admits both bytes. Its byte at the even address is the lower one with
ENDIAN little, the spec's value by its own decision D3 (log entry 13), and the upper one with big (R51). Constructor: ld. -/
def Obligations.WordLoad : Prop :=
  ∀ idx reg lo s, (effAddr s idx lo).getLsbD 0 = false → s.admitsMem (effAddr s idx lo) = true →
    s.admitsMem (effAddr s idx lo + 1) = true →
    ∃ t v, exec (.ld idx reg lo) s = .next t ∧ s.MoveDone t (low reg) v ∧
      s.params.firstByte v = (s.mem.read (effAddr s idx lo).toNat).toNat ∧
      s.params.secondByte v = (s.mem.read ((effAddr s idx lo).toNat + 1)).toNat

/-- STB (R290): bits 7:0 of the register at the address, where the platform lets a byte be stored there; no other byte, no register,
no flag. The single byte: the spec's own decision D21. Constructor: stb. -/
def Obligations.ByteStore : Prop :=
  ∀ idx reg lo s, s.mem.wf = true → s.admitsMem (effAddr s idx lo) = true → s.isText (effAddr s idx lo) = false →
    ∃ t, exec (.stb idx reg lo) s = .next t ∧
      (∀ a, t.mem.read a = if a = (effAddr s idx lo).toNat then (s.readReg (low reg)).extractLsb' 0 8 else s.mem.read a) ∧
      s.SameRegs t ∧ t.flags = s.flags ∧ s.MovesOn t ∧ s.SameUpper t ∧ s.SamePorts t ∧ s.SameInputs t ∧ s.SameMode t ∧
      s.SameContext t

/-- ST (R292): the two bytes of the register at the even address and the one after it, where the platform lets both be stored; no other
byte, no register, no flag. The byte at the even address is the lower one with ENDIAN little, the spec's value by its own decision
D3 (log entry 13), and the upper one with big (R51). Constructor: st. -/
def Obligations.WordStore : Prop :=
  ∀ idx reg lo s, s.mem.wf = true → (effAddr s idx lo).getLsbD 0 = false →
    s.admitsMem (effAddr s idx lo) = true → s.admitsMem (effAddr s idx lo + 1) = true →
    s.isText (effAddr s idx lo) = false → s.isText (effAddr s idx lo + 1) = false →
    ∃ t, exec (.st idx reg lo) s = .next t ∧
      (∀ a, (t.mem.read a).toNat =
        if a = (effAddr s idx lo).toNat then s.params.firstByte (s.readReg (low reg))
        else if a = (effAddr s idx lo).toNat + 1 then s.params.secondByte (s.readReg (low reg))
        else (s.mem.read a).toNat) ∧
      s.SameRegs t ∧ t.flags = s.flags ∧ s.MovesOn t ∧ s.SameUpper t ∧ s.SamePorts t ∧ s.SameInputs t ∧ s.SameMode t ∧
      s.SameContext t

/-- A load gives the latest store (R63): after an ST that completes, LD of the same index register and displacement gives the register
stored, and LDB of it and of the next displacement, where that does not wrap to 0, its two bytes (R51), for every value of the
immediate register, to which it is set again for the load. Premise: the destination keeps what is written (R21). The byte order and
what LDB leaves in the upper byte: the spec's own decisions D3, D20, D31 (log entries 13, 16). -/
def Obligations.LoadAfterStore : Prop :=
  ∀ idx reg d lo s t, s.mem.wf = true → exec (.st idx reg lo) s = .next t → s.discards (low d) = false →
    (∃ u, exec (.ld idx d lo) { t with immhi := s.immhi } = .next u ∧ u.readReg (low d) = s.readReg (low reg)) ∧
    (∃ u, exec (.ldb idx d lo) { t with immhi := s.immhi } = .next u ∧
      (u.readReg (low d)).toNat =
        s.params.byteLoaded (s.readReg (low d)) (s.params.firstByte (s.readReg (low reg)))) ∧
    (lo ≠ 15#4 → ∃ u, exec (.ldb idx d (lo + 1)) { t with immhi := s.immhi } = .next u ∧
      (u.readReg (low d)).toNat =
        s.params.byteLoaded (s.readReg (low d)) (s.params.secondByte (s.readReg (low reg))))

/-- ULD, ULDB and ULDBSX (R281 to R284): the bytes of U at the location of x[IDX], the immediate register unread. Location, byte order
and zero fill: the spec's own decisions D22, D3, D20 (log entries 6, 13, 16). Constructors: uld, uldb, uldbsx. -/
def Obligations.UpperLoads : Prop :=
  ∀ idx reg s,
    ((upperAddr s idx).getLsbD 0 = false → ∃ t v, exec (.uld idx reg) s = .next t ∧ s.MoveDone t (low reg) v ∧
      s.params.firstByte v = (s.upper.read (upperLoc (upperAddr s idx))).toNat ∧
      s.params.secondByte v = (s.upper.read (upperLoc (upperAddr s idx) + 1)).toNat) ∧
    (∃ t v, exec (.uldb idx reg) s = .next t ∧ s.MoveDone t (low reg) v ∧
      v.toNat = s.params.byteLoaded (s.readReg (low reg)) (s.upper.read (upperLoc (upperAddr s idx))).toNat) ∧
    (∃ t v, exec (.uldbsx idx reg) s = .next t ∧ s.MoveDone t (low reg) v ∧
      v.toInt = (s.upper.read (upperLoc (upperAddr s idx))).toInt)

/-- UST and USTB (R281, R285, R286): the register, or its bits 7:0, at the location of x[IDX]; no other byte of U, no byte of M, no
register, no flag. D22, D3 (log entries 6, 13). Constructors: ust, ustb. -/
def Obligations.UpperStores : Prop :=
  ∀ idx reg s, s.upper.wf = true →
    ((upperAddr s idx).getLsbD 0 = false → ∃ t, exec (.ust idx reg) s = .next t ∧
      (∀ a, (t.upper.read a).toNat =
        if a = upperLoc (upperAddr s idx) then s.params.firstByte (s.readReg (low reg))
        else if a = upperLoc (upperAddr s idx) + 1 then s.params.secondByte (s.readReg (low reg))
        else (s.upper.read a).toNat) ∧
      s.SameRegs t ∧ t.flags = s.flags ∧ s.MovesOn t ∧ s.SameMem t ∧ s.SamePorts t ∧ s.SameInputs t ∧ s.SameMode t ∧
      s.SameContext t) ∧
    (∃ t, exec (.ustb idx reg) s = .next t ∧
      (∀ a, t.upper.read a =
        if a = upperLoc (upperAddr s idx) then (s.readReg (low reg)).extractLsb' 0 8 else s.upper.read a) ∧
      s.SameRegs t ∧ t.flags = s.flags ∧ s.MovesOn t ∧ s.SameMem t ∧ s.SamePorts t ∧ s.SameInputs t ∧ s.SameMode t ∧
      s.SameContext t)

/-- UST and then ULD at the same index register gives the register back (R58, R63), whatever UPPER_MAP is, where the destination keeps
what is written (R21). D22 (log entry 6). -/
def Obligations.UpperLoadAfterStore : Prop :=
  ∀ idx reg d s t u, s.upper.wf = true → s.discards (low d) = false → exec (.ust idx reg) s = .next t → exec (.uld idx d) t = .next u →
    u.readReg (low d) = s.readReg (low reg)

/-- A word access at an odd address, and a fetch at an odd pc, have no meaning (R54, R55, R27) and fault; nothing else about them is
claimed. D4 (log entry 20). -/
def Obligations.MisalignedFaults : Prop :=
  (∀ idx reg lo s, (effAddr s idx lo).getLsbD 0 = true →
    exec (.ld idx reg lo) s = .fault .misalignedAccess ∧ exec (.st idx reg lo) s = .fault .misalignedAccess) ∧
  (∀ idx reg s, (upperAddr s idx).getLsbD 0 = true →
    exec (.uld idx reg) s = .fault .misalignedAccess ∧ exec (.ust idx reg) s = .fault .misalignedAccess) ∧
  (∀ s : State, s.interruptTaken = false → s.sleeping = false → s.pc.getLsbD 0 = true → step s = .fault .misalignedFetch)

/-- An access to main memory or to a port that the platform does not admit, a store into the declared program text, and a fetch that it
does not admit have no step (R60, R66, R312). A word access is stopped by its first byte or, where that one is let through, by its
second, at the address after it. D2, D23 and log entries 9, 10, 20. The clauses on the fetch are those of main memory with UNIFIED_MEM;
that without it the fetch has absent addresses of its own is the model's choice (DESIGN CHOICE, log entries 9, 21), as is the order of
the checks (log entry 20). -/
def Obligations.RefusedAccesses : Prop :=
  (∀ idx reg lo s, s.admitsMem (effAddr s idx lo) = false →
    exec (.ldb idx reg lo) s = .refused (.memoryNotAdmitted (effAddr s idx lo)) ∧
    exec (.ldbsx idx reg lo) s = .refused (.memoryNotAdmitted (effAddr s idx lo)) ∧
    exec (.stb idx reg lo) s = .refused (.memoryNotAdmitted (effAddr s idx lo)) ∧
    ((effAddr s idx lo).getLsbD 0 = false →
      exec (.ld idx reg lo) s = .refused (.memoryNotAdmitted (effAddr s idx lo)) ∧
      exec (.st idx reg lo) s = .refused (.memoryNotAdmitted (effAddr s idx lo)))) ∧
  (∀ idx reg lo s, s.admitsMem (effAddr s idx lo) = true → s.isText (effAddr s idx lo) = true →
    exec (.stb idx reg lo) s = .refused (.storeToProgramText (effAddr s idx lo)) ∧
    ((effAddr s idx lo).getLsbD 0 = false →
      exec (.st idx reg lo) s = .refused (.storeToProgramText (effAddr s idx lo)))) ∧
  (∀ idx reg lo s, (effAddr s idx lo).getLsbD 0 = false → s.admitsMem (effAddr s idx lo) = true →
    (s.admitsMem (effAddr s idx lo + 1) = false →
      exec (.ld idx reg lo) s = .refused (.memoryNotAdmitted (effAddr s idx lo + 1))) ∧
    (s.isText (effAddr s idx lo) = false → s.admitsMem (effAddr s idx lo + 1) = false →
      exec (.st idx reg lo) s = .refused (.memoryNotAdmitted (effAddr s idx lo + 1))) ∧
    (s.isText (effAddr s idx lo) = false → s.admitsMem (effAddr s idx lo + 1) = true →
      s.isText (effAddr s idx lo + 1) = true →
      exec (.st idx reg lo) s = .refused (.storeToProgramText (effAddr s idx lo + 1)))) ∧
  (∀ s : State, s.interruptTaken = false → s.sleeping = false → s.pc.getLsbD 0 = false →
    (s.admitsFetch s.pc = false → step s = .refused (.memoryNotAdmitted s.pc)) ∧
    (s.admitsFetch s.pc = true → s.admitsFetch (s.pc + 1) = false → step s = .refused (.memoryNotAdmitted (s.pc + 1))) ∧
    (s.params.unifiedMem = true → ∀ a, s.admitsFetch a = s.admitsMem a)) ∧
  (∀ rp rv lo s, s.admitsPort (portAddr s rp lo) = false →
    exec (.inPort rp rv lo) s = .refused (.portNotAdmitted (portAddr s rp lo)) ∧
    exec (.outPort rp rv lo) s = .refused (.portNotAdmitted (portAddr s rp lo)))

/-- IN (R310): the datum is the next one the platform supplies, whatever it is, or a free value where none is supplied; the read is
recorded after the port accesses before it. D23 (log entry 8). Constructor: inPort. -/
def Obligations.PortInput : Prop :=
  ∀ rp rv lo s, s.admitsPort (portAddr s rp lo) = true →
    ∃ t v, exec (.inPort rp rv lo) s = .next t ∧ s.WroteReg t (low rv) v ∧
      (∀ w rest, s.portIn = w :: rest → v = w ∧ t.portIn = rest) ∧
      (s.portIn = [] → v = Config.portInput s.portTaken (portAddr s rp lo) ∧ t.portIn = []) ∧
      t.portTaken = s.portTaken + 1 ∧ t.events = s.events ++ [.read (portAddr s rp lo) v] ∧
      t.flags = s.flags ∧ s.MovesOn t ∧ s.SameMem t ∧ s.SameUpper t ∧ s.SameInputs t ∧ s.SameMode t ∧ s.SameContext t

/-- OUT (R311): all 16 bits of the register are handed to the platform, recorded after the port accesses before it; nothing else
changes. D23 (log entry 8). Constructor: outPort. -/
def Obligations.PortOutput : Prop :=
  ∀ rp rv lo s, s.admitsPort (portAddr s rp lo) = true →
    ∃ t, exec (.outPort rp rv lo) s = .next t ∧
      t.events = s.events ++ [.write (portAddr s rp lo) (s.readReg (low rv))] ∧ t.portIn = s.portIn ∧
      t.portTaken = s.portTaken ∧ s.SameRegs t ∧ t.flags = s.flags ∧ s.MovesOn t ∧ s.SameMem t ∧ s.SameUpper t ∧
      s.SameInputs t ∧ s.SameMode t ∧ s.SameContext t

/-! ### Reserved encodings -/

/-- The nine reserved rows (R94, R142, R143, R147, R218, R287) have no meaning: the step faults, in every state and for every operand.
D29, D33 (log entry 19). Constructors (each stops on every path): reservedAlu31, reservedSub5, reservedSub8To15,
reservedNopNonzero, reservedRetNonzero, reservedClass3Op10, reservedClass3Op11, reservedClass3Op15, reservedClass7Flg5. -/
def Obligations.ReservedRowsFault : Prop :=
  ∀ (s : State) (r d : LowReg) (b : BitVec 8) (k : BitVec 11),
    exec (.reservedAlu31 r) s = .fault .reservedEncoding ∧ exec (.reservedSub5 b) s = .fault .reservedEncoding ∧
    exec (.reservedSub8To15 k) s = .fault .reservedEncoding ∧ exec (.reservedNopNonzero b) s = .fault .reservedEncoding ∧
    exec (.reservedRetNonzero b) s = .fault .reservedEncoding ∧ exec (.reservedClass3Op10 d r) s = .fault .reservedEncoding ∧
    exec (.reservedClass3Op11 d r) s = .fault .reservedEncoding ∧ exec (.reservedClass3Op15 d r) s = .fault .reservedEncoding ∧
    exec (.reservedClass7Flg5 d r) s = .fault .reservedEncoding

/-- The words that fault as reserved are exactly those of the list of R94, and no instruction of any other word ever does. D29, D33
(log entry 19). -/
def Obligations.ReservedWords : Prop :=
  ∀ (w : Word) (s : State), exec (decodeWord w) s = .fault .reservedEncoding ↔
    (0x0001 ≤ w.toNat ∧ w.toNat ≤ 0x00FF) ∨ (0x0102 ≤ w.toNat ∧ w.toNat ≤ 0x01FF) ∨
    (0x04F0 ≤ w.toNat ∧ w.toNat ≤ 0x05FF) ∨ (0x0800 ≤ w.toNat ∧ w.toNat ≤ 0x0FFF) ∨
    (0x3A00 ≤ w.toNat ∧ w.toNat ≤ 0x3BFF) ∨ (0x3F00 ≤ w.toNat ∧ w.toNat ≤ 0x3FFF) ∨ w &&& 0xF007#16 = 0x7005#16

/-! ### The step and interrupts -/

/-- A step runs the decoded instruction (R320, R55): where no interrupt is taken and the core is awake, and the two bytes at an even,
admitted pc decode to `i`, the step is exec of `i`, which is well formed, on the state whose sample of irq has been taken: one at
every step, whatever IE is (R324), and nothing else changed. With UNIFIED_MEM the bytes are those of main memory (R66): the spec's own
decision D2 (log entry 21). That without it they are those of a code memory is the model's choice (DESIGN CHOICE, log entry 21): D2 and
R66 speak only of UNIFIED_MEM true. So are the fields in which the sample is counted (log entry 7). D24 (log entry 24). -/
def Obligations.StepRunsDecoded : Prop :=
  ∀ (s : State) (i : Instr) (rest : List Byte), s.interruptTaken = false → s.sleeping = false → s.pc.getLsbD 0 = false →
    s.admitsFetch s.pc = true → s.admitsFetch (s.pc + 1) = true →
    decode s.params.endian [s.codeMem.read s.pc.toNat, s.codeMem.read (s.pc + 1).toNat] = .ok (i, rest) →
    step s = exec i s.pollIrq ∧ i.wellFormed = true ∧
    s.pollIrq = { s with irqIn := s.irqIn.tail, irqTaken := s.irqTaken + 1 } ∧
    s.codeMem = (if s.params.unifiedMem = true then s.mem else s.code)

/-- Taking an interrupt (R320, R324, R325): with IE = 1 and irq = 1 the step saves the immediate register and the flags in the shadow
registers and pc in ILR, clears the immediate register, IE and the sleep state, and goes to INT_VECTOR; no instruction runs, asleep
or awake, and the sample of irq is used up. D9, D24, D26 (log entries 5, 7, 12, 24). That the platform's record, the parameters and the
code memory stay is the model's choice (log entries 9, 31, 21). -/
def Obligations.InterruptTaken : Prop :=
  ∀ s : State, s.ie = true → s.irqLevel = true →
    ∃ t, step s = .next t ∧ t.sImmhi = s.immhi ∧ t.sFlags = Flags.pack s.flags ∧
      [t.sFlags.getLsbD 3, t.sFlags.getLsbD 2, t.sFlags.getLsbD 1, t.sFlags.getLsbD 0] =
        [s.flags.z, s.flags.c, s.flags.s, s.flags.v] ∧
      s.WroteReg t s.params.ilrIndex s.pc ∧ t.immhi = 0 ∧ t.ie = false ∧ t.sleeping = false ∧ t.pc = s.intVector ∧
      t.flags = s.flags ∧ s.SameMem t ∧ s.SameUpper t ∧ s.SamePorts t ∧ s.SameSetup t ∧
      t.irqIn = s.irqIn.tail ∧ t.irqTaken = s.irqTaken + 1

/-- A sleeping core that takes no interrupt changes nothing (R320, R330) but that the step has taken its sample of irq (R324); with IE = 0
it sleeps for ever, and in no state it reaches is anything else changed. D27 (log entries 7, 18). That the platform's record, the
parameters and the code memory stay is the model's choice (log entries 9, 31, 21). -/
def Obligations.SleepingCoreWaits : Prop :=
  (∀ s : State, s.sleeping = true → s.interruptTaken = false →
    ∃ t, step s = .next t ∧ s.SameRegs t ∧ t.flags = s.flags ∧ t.pc = s.pc ∧ t.immhi = s.immhi ∧ s.SameMem t ∧ s.SameUpper t ∧
      s.SamePorts t ∧ s.SameMode t ∧ s.SameContext t ∧ s.SameSetup t ∧ t.irqIn = s.irqIn.tail ∧
      t.irqTaken = s.irqTaken + 1) ∧
  (∀ s : State, s.sleeping = true → s.ie = false → ∀ t, s.Reaches t →
    s.SameRegs t ∧ t.flags = s.flags ∧ t.pc = s.pc ∧ t.immhi = s.immhi ∧ s.SameMem t ∧ s.SameUpper t ∧ s.SamePorts t ∧
      s.SameMode t ∧ s.SameContext t ∧ s.SameSetup t ∧ (∃ u, step t = .next u))

/-- An interrupt and the IRET that ends its handler put the interrupted program back (R326, R327): whatever the handler did, if ILR and
the shadow registers are as the entry left them, IRET gives pc, the immediate register, the flags and IE of the moment of the entry,
awake or asleep before it. ILR is a register that keeps what is written, as x[14] is. D9, D24, D25 (log entries 12, 24). -/
def Obligations.InterruptIsTransparent : Prop :=
  Params.spec.ilrIndex ≠ 0#7 ∧
  ∀ s t u : State, s.ie = true → s.irqLevel = true → step s = .next t → s.discards s.params.ilrIndex = false →
    u.params = t.params → u.readReg u.params.ilrIndex = t.readReg t.params.ilrIndex → u.sImmhi = t.sImmhi →
    u.sFlags = t.sFlags →
    ∃ v, exec .iret u = .next v ∧ v.pc = s.pc ∧ v.immhi = s.immhi ∧ v.flags = s.flags ∧ v.ie = s.ie ∧ u.SameRegs v

/-! ### The machine as a whole -/

/-- Under R0_ZERO register 0 reads zero in every state and discards a write; every other register, and register 0 otherwise, reads what
was written last, and a write changes no other (R9, R21). R0_ZERO: general knowledge, not in the source (D8, log entry 11). -/
def Obligations.RegisterFile : Prop :=
  ∀ (s : State) (i : RegNum) (v : Word),
    (s.params.r0Zero = true → s.readReg 0#7 = 0 ∧ s.writeReg 0#7 v = s) ∧
    (s.params.r0Zero = true ∧ i = 0#7 ∨ (s.writeReg i v).readReg i = v) ∧ s.WroteReg (s.writeReg i v) i v

/-- After reset (R40, R360) under any parameters: pc at RESET_VECTOR, no immediate, interrupts off, awake, x[0] zero under R0_ZERO; the
spec's parameters have RESET_VECTOR 0x0000, little endian, one memory, a zero register 0, LR 15 and ILR 14 (R6): the spec's own
decisions D28, D2, D3, D8, D9. That the other registers, the flags and the shadow registers are zero is this model's choice, log
entry 1; so is empty memory, log entry 2, and so is the code memory, log entry 21. -/
def Obligations.ResetState : Prop :=
  State.reset = State.resetWith Params.spec ∧ Params.spec.resetVector = 0x0000 ∧ Params.spec.endian = .little ∧
  Params.spec.unifiedMem = true ∧ Params.spec.r0Zero = true ∧ Params.spec.lrIndex = 15#7 ∧ Params.spec.ilrIndex = 14#7 ∧
  Params.spec.flagRules = FlagRules.spec ∧ Params.spec.byteLoadFill = .zero ∧ Params.spec.muluReading = .signedSigned ∧
  ∀ p : Params, (State.resetWith p).params = p ∧ (State.resetWith p).pc = p.resetVector ∧ (State.resetWith p).immhi = 0 ∧
    (State.resetWith p).ie = false ∧ (State.resetWith p).sleeping = false ∧ (∀ j, (State.resetWith p).readReg j = 0) ∧
    (State.resetWith p).flags = { z := false, c := false, s := false, v := false } ∧ (State.resetWith p).sImmhi = 0 ∧
    (State.resetWith p).sFlags = 0 ∧ (State.resetWith p).mem = [] ∧ (State.resetWith p).code = [] ∧
    (State.resetWith p).upper = []

/-- The state after reset meets the invariant, under the spec's parameters and any others. The form of memory is the model's (log entry
2), and the code memory its choice (log entry 21). -/
def Obligations.ResetInv : Prop := State.reset.Inv ∧ ∀ p : Params, (State.resetWith p).Inv

/-- Every step keeps the invariant, from any state that meets it and under any parameters: the memories stay canonical, main memory and
the code memory list only addresses below 2^16 (R50), and under R0_ZERO nothing is ever stored where register 0 is held (R21). The
form of memory is the model's (log entry 2), and the code memory itself its choice (DESIGN CHOICE, log entry 21). -/
def Obligations.StepKeepsInv : Prop := ∀ s t : State, s.Inv → step s = .next t → t.Inv

/-- IE changes only by CLI, STI and IRET, the shadow registers only by RSIX, the sleep state only by SLEEP, among all instructions
(R29, R33, R34, R35, R37); the rest is interrupt entry. Read from the rules by inference (D24, D25, D27, log entry 24). -/
def Obligations.ControlStateWriters : Prop :=
  ∀ i s t, exec i s = .next t →
    (t.ie ≠ s.ie → i = .cli ∨ i = .sti ∨ i = .iret) ∧
    (t.sImmhi ≠ s.sImmhi ∨ t.sFlags ≠ s.sFlags → ∃ r, i = .rsix r) ∧
    (t.sleeping ≠ s.sleeping → i = .sleep)

/-- Which instructions reach which space (R38): a byte of M changes only by STB and ST, a byte of U only by USTB and UST, a port is
accessed only by IN and OUT; this much is read from the spec's table of spaces (D22, D23; the ports by the record of accesses of log
entry 8). The last clause is the model's choice: no instruction changes the platform's record (DESIGN CHOICE, log entry 9), the
parameters (DESIGN CHOICE, log entry 31) or the code memory (DESIGN CHOICE, log entry 21), which that table does not have. -/
def Obligations.SpaceWriters : Prop :=
  ∀ i s t, exec i s = .next t →
    ((∃ a, t.mem.read a ≠ s.mem.read a) → ∃ idx reg lo, i = .stb idx reg lo ∨ i = .st idx reg lo) ∧
    ((∃ a, t.upper.read a ≠ s.upper.read a) → ∃ idx reg, i = .ustb idx reg ∨ i = .ust idx reg) ∧
    (t.events ≠ s.events → ∃ rp rv lo, i = .inPort rp rv lo ∨ i = .outPort rp rv lo) ∧
    s.SameSetup t

/-- Which instructions transfer control (R26, R249): every instruction but the branches, RET and IRET goes on at pc + 2. D1 (log entry
26). -/
def Obligations.ControlTransfers : Prop :=
  ∀ i s t, exec i s = .next t → t.pc ≠ s.pc + 2 →
    i = .ret ∨ i = .iret ∨ ∃ cond r lo, i = Instr.branch cond r lo

/-- By the spec's FLAG_RULES, V is changed only by RSF, IRET and, in any class, the operations add, adc, sub, sbb and cmp (R29, R141); a
class 6 or class 9 word counts as the operation its prefix gives it. D11, D15 (log entry 14). -/
def Obligations.OverflowFlagWriters : Prop :=
  ∀ i s t, s.params.flagRules = FlagRules.spec → exec i s = .next t → t.flags.v ≠ s.flags.v →
    (∃ r, i = .rsf r) ∨ i = .iret ∨
    ∃ op ∈ [AluOp.add, .adc, .sub, .sbb, .cmp],
      (∃ d r, i = Instr.class2 op d r) ∨ (∃ d lo, i = Instr.class3 op d lo) ∨
      (∃ dir rx rl, i.resolve s.immhi = Instr.class6 op dir rx rl) ∨
      (∃ cond d a b, i.resolve s.immhi = Instr.class9 op cond d a b)

/-! ### Encoding -/

/-- The opcode maps (R86, R87, R88): the numbers of the single register operations, of the ALU operations in classes 2, 3, 6 and 9,
and of the conditions in classes 4, 5 and 9, for every register and immediate field; the class 5 words as the rows of their instances
(log entry 4), and in a prefix the bits above the operation and the condition ignored (R93, the spec's own decision D32, log entry
22). Beside them the FLG codes of class 7 (R89), of which 0b101 is reserved by the spec's own decision D29 (log entry 19, DEDUCED). -/
def Obligations.OpcodeMaps : Prop :=
  (∀ r : BitVec 4, [0, 1, 2, 3, 4, 5, 6, 7, 8, 9, 10, 11, 12, 13, 14, 15].map (fun n => decodeWord (0x04#8 ++ BitVec.ofNat 4 n ++ r)) =
    [.asr r, .lsr r, .lsl r, .rolc r, .rorc r, .rol r, .ror r, .cc, .sc, .cz, .sz, .cs, .ss, .stf r, .rsf r, .reservedAlu31 r]) ∧
  [0, 1, 2, 3, 4, 5, 6, 7, 8, 9, 10, 11, 12, 13, 14, 15].map (fun n => AluOp.ofBits (BitVec.ofNat 4 n)) =
    [.mov, .add, .adc, .sub, .sbb, .and, .or, .xor, .mul, .mulu, .rrn, .rln, .cmp, .test, .umulu, .bswap] ∧
  [0, 1, 2, 3, 4, 5, 6, 7, 8, 9, 10, 11, 12, 13, 14, 15].map (fun n => Cond.ofBits (BitVec.ofNat 4 n)) =
    [.z, .nz, .s, .ns, .c, .nc, .v, .nv, .lt, .le, .gt, .ge, .leu, .gtu, .a, .l] ∧
  (∀ d r : BitVec 4,
    [0, 1, 2, 3, 4, 5, 6, 7, 8, 9, 10, 11, 12, 13, 14, 15].map (fun n => decodeWord (0x2#4 ++ BitVec.ofNat 4 n ++ d ++ r)) =
      [.movRR d r, .addRR d r, .adcRR d r, .subRR d r, .sbbRR d r, .andRR d r, .orRR d r, .xorRR d r, .mulRR d r, .muluRR d r,
       .rrnRR d r, .rlnRR d r, .cmpRR d r, .testRR d r, .umuluRR d r, .bswapRR d r] ∧
    [0, 1, 2, 3, 4, 5, 6, 7, 8, 9, 10, 11, 12, 13, 14, 15].map (fun n => decodeWord (0x3#4 ++ BitVec.ofNat 4 n ++ d ++ r)) =
      [.movRI d r, .addRI d r, .adcRI d r, .subRI d r, .sbbRI d r, .andRI d r, .orRI d r, .xorRI d r, .mulRI d r, .muluRI d r,
       .reservedClass3Op10 d r, .reservedClass3Op11 d r, .cmpRI d r, .testRI d r, .umuluRI d r, .reservedClass3Op15 d r] ∧
    [0, 1, 2, 3, 4, 5, 6, 7, 8, 9, 10, 11, 12, 13, 14, 15].map (fun n => decodeWord (0x4#4 ++ BitVec.ofNat 4 n ++ d ++ r)) =
      [.bz d r, .bnz d r, .bs d r, .bns d r, .bc d r, .bnc d r, .bv d r, .bnv d r, .blt d r, .ble d r, .bgt d r, .bge d r,
       .bleu d r, .bgtu d r, .ba d r, .bl d r] ∧
    [0, 1, 2, 3, 4, 5, 6, 7, 8, 9, 10, 11, 12, 13, 14, 15].map (fun n => decodeWord (0x5#4 ++ BitVec.ofNat 4 n ++ d ++ r)) =
      [.movZ d r, .movNz d r, .movS d r, .movNs d r, .movC d r, .movNc d r, .movV d r, .movNv d r, .movLt d r, .movLe d r,
       .movGt d r, .movGe d r, .movLeu d r, .movGtu d r, .movA d r, .movL d r]) ∧
  (∀ (x n : BitVec 4) (y : BitVec 8) (c : BitVec 4) (w : Word),
    (nibble3 w = 0x6#4 → decodePair (0x1#4 ++ y ++ n) w =
      some (Instr.class6 (AluOp.ofBits n) (Dir.ofBit (w.getLsbD 11)) (w.extractLsb' 4 7) (w.extractLsb' 0 4))) ∧
    (nibble3 w = 0x9#4 → decodePair (0x1#4 ++ x ++ c ++ n) w =
      some (Instr.class9 (AluOp.ofBits n) (Cond.ofBits c) (w.extractLsb' 8 4) (w.extractLsb' 4 4) (w.extractLsb' 0 4)))) ∧
  (∀ i r x : BitVec 4, decodeWord (0x7#4 ++ i ++ r ++ x) =
    match (x.extractLsb' 0 3).toNat with
    | 0 => .uld i r
    | 1 => .uldb i r
    | 2 => .uldbsx i r
    | 3 => .uldbsx i r
    | 4 => .ust i r
    | 5 => .reservedClass7Flg5 i r
    | _ => .ustb i r)

/-- Every one of the 65536 words is a well-formed row of the table, and the decoder reads that row again from its canonical encoding.
The fields and the classes are the spec's (R80, R84); ignored bits are dropped, D32 (log entry 22). -/
def Obligations.EveryWordDecodes : Prop :=
  ∀ w : Word, (decodeWord w).wellFormed = true ∧ decodeWords (encode (decodeWord w)) = some (decodeWord w)

/-- Decode and encode agree: for every well-formed instruction, with every operand at every value its encoding admits, the decoder
reads from its words the instruction itself, or for MOV.cc of class 5, whose words are those of its instances, the instance of
its condition (log entry 4). -/
def Obligations.DecodeEncode : Prop :=
  ∀ i : Instr, i.wellFormed = true → decodeWords (encode i) = some i.canonical

/-- A few words of the spec's encodings (95_test_vectors.md), one or more for each class, decode to the instructions they are. -/
def Obligations.SampleDecodings : Prop :=
  [0x0000, 0x0101, 0x02F5, 0x0403, 0x04E2, 0x0601, 0x1123, 0x2312, 0x3214, 0x4F32, 0x5812].map decodeWord =
    [.nop, .iret, .stix 5, .asr 3, .rsf 2, .sti, .imm 0x123, .subRR 1 2, .adcRI 1 4, .bl 3 2, .movLt 1 2] ∧
  [0x67F3, 0x6FF3, 0x7213, 0x8211, 0x9123, 0xA210, 0xB211, 0xC21E, 0xD212, 0xE015, 0xF21F].map decodeWord =
    [.class6Word .toRx 127 3, .class6Word .toRl 127 3, .uldbsx 2 1, .ldbsx 2 1 1, .class9Word 1 2 3, .ldb 2 1 0, .stb 2 1 1,
     .ld 2 1 14, .st 2 1 2, .inPort 0 1 5, .outPort 2 1 15] ∧
  decodePair 0x1FF1 0x67F3 = some (.addX .toRx 127 3) ∧ decodePair 0x10E3 0x9123 = some (.subT .a 1 2 3)
end

