-- ==== Sys2Proof/Laws/Bits.lean ====
section
/-! SUPPORT. What the bit-field and byte-order helpers give on words put together from fields, and the numbers of operations,
conditions and directions read back. -/

namespace Sys2Proof

/-- Taking out the field that starts where the lower part of an append ends gives the upper part. -/
theorem extract_append_high {n m : Nat} (x : BitVec n) (y : BitVec m) : (x ++ y).extractLsb' m n = x := by
  ext i hi
  simp [BitVec.getLsbD_append, BitVec.getLsbD_eq_getElem hi]

/-- A bit of the lower part of an append. -/
theorem bit_append_low {n m : Nat} (x : BitVec n) (y : BitVec m) (k : Nat) (h : k < m) :
    (x ++ y).getLsbD k = y.getLsbD k := by
  simp [BitVec.getLsbD_append, h]

/-- A bit of the upper part of an append. -/
theorem bit_append_up {n m : Nat} (x : BitVec n) (y : BitVec m) (k : Nat) (h : m ≤ k) :
    (x ++ y).getLsbD k = x.getLsbD (k - m) := by
  simp [BitVec.getLsbD_append, show ¬ k < m by omega]

/-- A field inside the lower part of an append is that field of the lower part. -/
theorem extract_append_low {n m : Nat} (x : BitVec n) (y : BitVec m) (k len : Nat) (h : k + len ≤ m) :
    (x ++ y).extractLsb' k len = y.extractLsb' k len := by
  ext i hi
  simp [BitVec.getLsbD_append, show k + i < m by omega]

/-- A field inside the upper part of an append is that field of the upper part. -/
theorem extract_append_up {n m : Nat} (x : BitVec n) (y : BitVec m) (k len : Nat) (h : m ≤ k) :
    (x ++ y).extractLsb' k len = x.extractLsb' (k - m) len := by
  ext i hi
  simp [BitVec.getLsbD_append, show ¬ k + i < m by omega, show k + i - m = k - m + i by omega]

/-- The value of an append is the value of its upper part times the size of its lower part, and the lower part. -/
theorem toNat_append_add {n m : Nat} (x : BitVec n) (y : BitVec m) : (x ++ y).toNat = x.toNat * 2 ^ m + y.toNat := by
  rw [BitVec.toNat_append, ← Nat.shiftLeft_add_eq_or_of_lt y.isLt, Nat.shiftLeft_eq]

theorem extract_all {n : Nat} (x : BitVec n) : x.extractLsb' 0 n = x := by
  ext i hi
  simp

@[simp] theorem nibble3_word4 (a b c d : BitVec 4) : nibble3 (word4 a b c d) = a := by
  simp only [nibble3, word4]
  rw [extract_append_up _ _ _ _ (by omega), extract_append_up _ _ _ _ (by omega), extract_append_up _ _ _ _ (by omega), extract_all]

@[simp] theorem nibble2_word4 (a b c d : BitVec 4) : nibble2 (word4 a b c d) = b := by
  simp only [nibble2, word4]
  rw [extract_append_up _ _ _ _ (by omega), extract_append_up _ _ _ _ (by omega), extract_append_low _ _ _ _ (by omega), extract_all]

@[simp] theorem nibble1_word4 (a b c d : BitVec 4) : nibble1 (word4 a b c d) = c := by
  simp only [nibble1, word4]
  rw [extract_append_up _ _ _ _ (by omega), extract_append_low _ _ _ _ (by omega), extract_all]

@[simp] theorem nibble0_word4 (a b c d : BitVec 4) : nibble0 (word4 a b c d) = d := by
  simp only [nibble0, word4]
  rw [extract_append_low _ _ _ _ (by omega), extract_all]

@[simp] theorem low8_word4 (a b c d : BitVec 4) : low8 (word4 a b c d) = c ++ d := by
  apply BitVec.eq_of_getLsbD_eq
  intro i hi
  simp only [low8, word4, BitVec.getLsbD_extractLsb', hi, decide_true, Bool.true_and, Nat.zero_add]
  by_cases h : i < 4
  · rw [bit_append_low _ _ _ h, bit_append_low _ _ _ h]
  · rw [bit_append_up (a ++ b ++ c) d i (by omega), bit_append_up c d i (by omega), bit_append_low (a ++ b) c _ (by omega)]

@[simp] theorem low3_word4 (a b c d : BitVec 4) : (word4 a b c d).extractLsb' 0 3 = d.extractLsb' 0 3 := by
  simp only [word4]
  rw [extract_append_low _ _ _ _ (by omega)]

@[simp] theorem low12_word4 (a b c d : BitVec 4) : low12 (word4 a b c d) = b ++ c ++ d := by
  apply BitVec.eq_of_getLsbD_eq
  intro i hi
  simp only [low12, word4, BitVec.getLsbD_extractLsb', hi, decide_true, Bool.true_and, Nat.zero_add]
  by_cases h : i < 4
  · rw [bit_append_low _ _ _ h, bit_append_low _ _ _ h]
  · rw [bit_append_up (a ++ b ++ c) d i (by omega), bit_append_up (b ++ c) d i (by omega)]
    by_cases h8 : i - 4 < 4
    · rw [bit_append_low (a ++ b) c _ h8, bit_append_low b c _ h8]
    · rw [bit_append_up (a ++ b) c _ (by omega), bit_append_up b c _ (by omega), bit_append_low a b _ (by omega)]

@[simp] theorem nibble3_word8 (h l : BitVec 8) : nibble3 (word8 h l) = h.extractLsb' 4 4 := by
  simp only [nibble3, word8]
  rw [extract_append_up _ _ _ _ (by omega)]

@[simp] theorem nibble2_word8 (h l : BitVec 8) : nibble2 (word8 h l) = h.extractLsb' 0 4 := by
  simp only [nibble2, word8]
  rw [extract_append_up _ _ _ _ (by omega)]

@[simp] theorem low8_word8 (h l : BitVec 8) : low8 (word8 h l) = l := by
  simp only [low8, word8]
  rw [extract_append_low _ _ _ _ (by omega), extract_all]

@[simp] theorem nibble3_wordImm (h : BitVec 12) : nibble3 (wordImm h) = 0x1 := by
  simp only [nibble3, wordImm]
  rw [extract_append_up _ _ _ _ (by omega), extract_all]
  rfl

@[simp] theorem low12_wordImm (h : BitVec 12) : low12 (wordImm h) = h := by
  simp only [low12, wordImm]
  rw [extract_append_low _ _ _ _ (by omega), extract_all]

@[simp] theorem nibble3_wordExt (dir : BitVec 1) (rx : BitVec 7) (rl : BitVec 4) : nibble3 (wordExt dir rx rl) = 0x6 := by
  simp only [nibble3, wordExt]
  rw [extract_append_up _ _ _ _ (by omega), extract_append_up _ _ _ _ (by omega), extract_append_up _ _ _ _ (by omega), extract_all]
  rfl

@[simp] theorem rxField_wordExt (dir : BitVec 1) (rx : BitVec 7) (rl : BitVec 4) : rxField (wordExt dir rx rl) = rx := by
  simp only [rxField, wordExt]
  rw [extract_append_up _ _ _ _ (by omega), extract_append_low _ _ _ _ (by omega), extract_all]

@[simp] theorem nibble0_wordExt (dir : BitVec 1) (rx : BitVec 7) (rl : BitVec 4) : nibble0 (wordExt dir rx rl) = rl := by
  simp only [nibble0, wordExt]
  rw [extract_append_low _ _ _ _ (by omega), extract_all]

@[simp] theorem dirBit_wordExt (dir : BitVec 1) (rx : BitVec 7) (rl : BitVec 4) : dirBit (wordExt dir rx rl) = dir[0] := by
  simp only [dirBit, wordExt]
  rw [bit_append_up _ _ _ (by omega), bit_append_up _ _ _ (by omega), bit_append_low _ _ _ (by omega)]
  rfl

@[simp] theorem nibble3_sub8 (b : BitVec 11) : nibble3 (0b00001#5 ++ b) = 0x0 := by
  simp only [nibble3]
  rw [extract_append_up _ _ _ _ (by omega)]
  rfl

@[simp] theorem low11_sub8 (b : BitVec 11) : low11 (0b00001#5 ++ b) = b := by
  simp only [low11]
  rw [extract_append_low _ _ _ _ (by omega), extract_all]

/-- Sub-class numbers of the words 0x0800 to 0x0FFF are 8 to 15 (R85). -/
theorem nibble2_sub8 (b : BitVec 11) : 8 ≤ (nibble2 (0b00001#5 ++ b)).toNat := by
  have h : (nibble2 (0b00001#5 ++ b)).getLsbD 3 = true := by
    simp only [nibble2, BitVec.getLsbD_extractLsb']
    rw [bit_append_up _ _ _ (by omega)]
    rfl
  exact Nat.le_of_not_lt fun hlt => by
    rw [BitVec.getLsbD, Nat.testBit_eq_decide_div_mod_eq] at h
    simp at h
    omega

/-- A word put together from its two halves. -/
theorem append_halves (w : Word) : w.extractLsb' 8 8 ++ w.extractLsb' 0 8 = w := by
  apply BitVec.eq_of_getLsbD_eq
  intro i hi
  by_cases h : i < 8
  · rw [bit_append_low _ _ _ h]
    simp [h]
  · rw [bit_append_up _ _ _ (by omega)]
    simp [show i - 8 < 8 by omega, show 8 + (i - 8) = i by omega]

@[simp] theorem joinBytes_bytes (order : Machine.Endian) (w : Word) :
    joinBytes order (evenByte order w) (oddByte order w) = w := by
  cases order <;> exact append_halves w

@[simp] theorem evenByte_joinBytes (order : Machine.Endian) (e o : Byte) : evenByte order (joinBytes order e o) = e := by
  cases order
  · exact (extract_append_low o e 0 8 (by omega)).trans (extract_all e)
  · exact extract_append_high e o

@[simp] theorem oddByte_joinBytes (order : Machine.Endian) (e o : Byte) : oddByte order (joinBytes order e o) = o := by
  cases order
  · exact extract_append_high o e
  · exact (extract_append_low e o 0 8 (by omega)).trans (extract_all o)

@[simp] theorem AluOp.ofBits_toBits (op : AluOp) : AluOp.ofBits op.toBits = op := by
  cases op <;> rfl

@[simp] theorem Cond.ofBits_toBits (k : Cond) : Cond.ofBits k.toBits = k := by
  cases k <;> rfl

@[simp] theorem Dir.ofBit_toBit (d : Dir) : Dir.ofBit d.toBit[0] = d := by
  cases d <;> rfl

theorem AluOp.toBits_ofBits (b : BitVec 4) : (AluOp.ofBits b).toBits = b := by
  revert b
  decide

theorem Cond.toBits_ofBits (b : BitVec 4) : (Cond.ofBits b).toBits = b := by
  revert b
  decide

end Sys2Proof
end

