-- ==== Sys2Proof/Laws/Memory.lean ====
section
/-! SUPPORT. The laws of memory: a read gives the latest write, a write touches one byte, and every memory operation keeps the
canonical form. -/

namespace Sys2Proof.Machine

@[simp] theorem read_nil (a : Nat) : Memory.read [] a = Memory.unlisted := rfl

theorem wf_cons (k : Nat) (b : Byte) (t : Memory) :
    Memory.wf ((k, b) :: t) = true ↔ b ≠ Memory.unlisted ∧ (∀ e ∈ t, k < e.1) ∧ Memory.wf t = true := by
  simp [Memory.wf, List.all_eq_true, and_assoc]

/-- An address that no entry has reads as an unlisted one. -/
theorem read_of_not_mem (m : Memory) (a : Nat) (h : ∀ e ∈ m, e.1 ≠ a) : Memory.read m a = Memory.unlisted := by
  induction m with
  | nil => rfl
  | cons e t ih =>
    obtain ⟨k, b⟩ := e
    have hk : k ≠ a := h (k, b) (by simp)
    simp only [Memory.read, hk, if_false]
    exact ih fun e he => h e (by simp [he])

/-- An entry of the memory after a write is the byte written or an entry of the memory before. -/
theorem mem_write (m : Memory) (a : Nat) (b : Byte) (e : Host.Cell) (h : e ∈ Memory.write m a b) :
    e = (a, b) ∨ e ∈ m := by
  induction m with
  | nil =>
    simp only [Memory.write] at h
    split at h <;> simp_all
  | cons e' t ih =>
    obtain ⟨k, c⟩ := e'
    simp only [Memory.write] at h
    split at h
    · split at h <;> simp_all
    · split at h
      · split at h <;> (simp_all; try tauto)
      · simp only [List.mem_cons] at h ⊢
        rcases h with h | h
        · exact .inr (.inl h)
        · rcases ih h with h | h
          · exact .inl h
          · exact .inr (.inr h)

/-- A write keeps the canonical form. -/
theorem wf_write (m : Memory) (a : Nat) (b : Byte) (h : m.wf = true) : (m.write a b).wf = true := by
  induction m with
  | nil =>
    simp only [Memory.write]
    split
    · rfl
    · rename_i hb
      simp [wf_cons, hb]
      rfl
  | cons e t ih =>
    obtain ⟨k, c⟩ := e
    obtain ⟨hc, hk, ht⟩ := (wf_cons k c t).1 h
    simp only [Memory.write]
    split
    · rename_i hak
      split
      · exact h
      · rename_i hb
        refine (wf_cons a b _).2 ⟨hb, ?_, h⟩
        intro e he
        rcases List.mem_cons.1 he with rfl | he
        · exact hak
        · exact Nat.lt_trans hak (hk e he)
    · split
      · rename_i hak
        subst hak
        split
        · exact ht
        · rename_i hb
          exact (wf_cons a b _).2 ⟨hb, hk, ht⟩
      · rename_i h1 h2
        refine (wf_cons k c _).2 ⟨hc, ?_, ih ht⟩
        intro e he
        rcases mem_write t a b e he with rfl | he
        · exact Nat.lt_of_le_of_ne (Nat.le_of_not_lt h1) (fun h => h2 h.symm)
        · exact hk e he

/-- What a byte reads as after a write (R52, R53, R63). -/
theorem read_write (m : Memory) (a x : Nat) (b : Byte) (h : m.wf = true) :
    Memory.read (m.write a b) x = if x = a then b else Memory.read m x := by
  induction m with
  | nil =>
    simp only [Memory.write]
    split
    · rename_i hb
      simp [hb]
    · simp only [Memory.read]
      by_cases hx : x = a
      · simp [hx]
      · simp [hx, Ne.symm hx]
  | cons e t ih =>
    obtain ⟨k, c⟩ := e
    obtain ⟨hc, hk, ht⟩ := (wf_cons k c t).1 h
    have hlow : ∀ y, y ≤ k → Memory.read t y = Memory.unlisted := fun y hy =>
      read_of_not_mem t y fun e he => by have := hk e he; omega
    simp only [Memory.write]
    split
    · rename_i hak
      have hread : Memory.read ((k, c) :: t) a = Memory.unlisted := by
        simp only [Memory.read, show ¬ k = a by omega, if_false]
        exact hlow a (by omega)
      split
      · rename_i hb
        by_cases hx : x = a
        · subst hx; rw [hread, if_pos rfl, hb]
        · rw [if_neg hx]
      · by_cases hx : x = a
        · subst hx; simp [Memory.read]
        · simp [Memory.read, hx, Ne.symm hx]
    · split
      · rename_i hak
        subst hak
        split
        · rename_i hb
          by_cases hx : x = a
          · subst hx; rw [hlow x (Nat.le_refl _), if_pos rfl, hb]
          · simp [Memory.read, hx, Ne.symm hx]
        · by_cases hx : x = a
          · simp [Memory.read, hx]
          · simp [Memory.read, hx, Ne.symm hx]
      · rename_i h1 h2
        simp only [Memory.read, ih ht]
        by_cases hx : k = x
        · subst hx; simp [Ne.symm h2]
        · simp [hx]

/-- Two canonical memories that read alike at every address are equal. -/
theorem memory_ext (m n : Memory) (hm : m.wf = true) (hn : n.wf = true)
    (h : ∀ a, Memory.read m a = Memory.read n a) : m = n := by
  induction m generalizing n with
  | nil =>
    cases n with
    | nil => rfl
    | cons e t =>
      obtain ⟨k, c⟩ := e
      have := h k
      simp [Memory.read] at this
      exact absurd this.symm ((wf_cons k c t).1 hn).1
  | cons e t ih =>
    obtain ⟨k, c⟩ := e
    obtain ⟨hc, hk, ht⟩ := (wf_cons k c t).1 hm
    cases n with
    | nil =>
      have := h k
      simp [Memory.read] at this
      exact absurd this hc
    | cons e' t' =>
      obtain ⟨k', c'⟩ := e'
      obtain ⟨hc', hk', ht'⟩ := (wf_cons k' c' t').1 hn
      have key : k = k' := by
        rcases Nat.lt_trichotomy k k' with hlt | heq | hgt
        · have := h k
          simp only [Memory.read, if_true, show ¬ k' = k by omega, if_false] at this
          rw [read_of_not_mem t' k fun e he => by have := hk' e he; omega] at this
          exact absurd this hc
        · exact heq
        · have := h k'
          simp only [Memory.read, if_true, show ¬ k = k' by omega, if_false] at this
          rw [read_of_not_mem t k' fun e he => by have := hk e he; omega] at this
          exact absurd this.symm hc'
      subst key
      have hcc : c = c' := by
        have := h k
        simpa [Memory.read] using this
      subst hcc
      congr 1
      refine ih t' ht ht' fun a => ?_
      by_cases ha : k = a
      · subst ha
        rw [read_of_not_mem t k fun e he => by have := hk e he; omega,
          read_of_not_mem t' k fun e he => by have := hk' e he; omega]
      · have := h a
        simpa [Memory.read, ha] using this

/-- A write leaves every listed address below a bound that holds for the address written. -/
theorem write_bounded (m : Memory) (a : Nat) (b : Byte) (n : Nat) (ha : a < n) (h : ∀ e ∈ m, e.1 < n) :
    ∀ e ∈ m.write a b, e.1 < n := by
  intro e he
  rcases mem_write m a b e he with rfl | he
  · exact ha
  · exact h e he

/-- Placing a word keeps the canonical form. -/
theorem wf_loadWord (m : Memory) (order : Endian) (a v : Word) (h : m.wf = true) : (m.loadWord order a v).wf = true :=
  wf_write _ _ _ (wf_write _ _ _ h)

end Sys2Proof.Machine
end

