-- ==== Sys2Proof/Laws/State.lean ====
section
/-! SUPPORT. What each update of the state does to each field, and what registers read after it: true by rfl, so that no proof
unfolds a record update. -/

namespace Sys2Proof.Machine

@[simp] theorem writeReg_regs (s : State) (i : RegNum) (v : Word) : (s.writeReg i v).regs = if s.discards i then s.regs else s.regs.set i.toNat v i.isLt := rfl
@[simp] theorem writeReg_pc (s : State) (i : RegNum) (v : Word) : (s.writeReg i v).pc = s.pc := rfl
@[simp] theorem writeReg_flags (s : State) (i : RegNum) (v : Word) : (s.writeReg i v).flags = s.flags := rfl
@[simp] theorem writeReg_immhi (s : State) (i : RegNum) (v : Word) : (s.writeReg i v).immhi = s.immhi := rfl
@[simp] theorem writeReg_ie (s : State) (i : RegNum) (v : Word) : (s.writeReg i v).ie = s.ie := rfl
@[simp] theorem writeReg_sleeping (s : State) (i : RegNum) (v : Word) : (s.writeReg i v).sleeping = s.sleeping := rfl
@[simp] theorem writeReg_sImmhi (s : State) (i : RegNum) (v : Word) : (s.writeReg i v).sImmhi = s.sImmhi := rfl
@[simp] theorem writeReg_sFlags (s : State) (i : RegNum) (v : Word) : (s.writeReg i v).sFlags = s.sFlags := rfl
@[simp] theorem writeReg_mem (s : State) (i : RegNum) (v : Word) : (s.writeReg i v).mem = s.mem := rfl
@[simp] theorem writeReg_upper (s : State) (i : RegNum) (v : Word) : (s.writeReg i v).upper = s.upper := rfl
@[simp] theorem writeReg_irqIn (s : State) (i : RegNum) (v : Word) : (s.writeReg i v).irqIn = s.irqIn := rfl
@[simp] theorem writeReg_irqTaken (s : State) (i : RegNum) (v : Word) : (s.writeReg i v).irqTaken = s.irqTaken := rfl
@[simp] theorem writeReg_portIn (s : State) (i : RegNum) (v : Word) : (s.writeReg i v).portIn = s.portIn := rfl
@[simp] theorem writeReg_portTaken (s : State) (i : RegNum) (v : Word) : (s.writeReg i v).portTaken = s.portTaken := rfl
@[simp] theorem writeReg_events (s : State) (i : RegNum) (v : Word) : (s.writeReg i v).events = s.events := rfl
@[simp] theorem writeReg_platform (s : State) (i : RegNum) (v : Word) : (s.writeReg i v).platform = s.platform := rfl
@[simp] theorem writeReg_params (s : State) (i : RegNum) (v : Word) : (s.writeReg i v).params = s.params := rfl
@[simp] theorem writeReg_code (s : State) (i : RegNum) (v : Word) : (s.writeReg i v).code = s.code := rfl

@[simp] theorem advance_regs (s : State) : s.advance.regs = s.regs := rfl
@[simp] theorem advance_pc (s : State) : s.advance.pc = s.nextPc := rfl
@[simp] theorem advance_flags (s : State) : s.advance.flags = s.flags := rfl
@[simp] theorem advance_immhi (s : State) : s.advance.immhi = 0 := rfl
@[simp] theorem advance_ie (s : State) : s.advance.ie = s.ie := rfl
@[simp] theorem advance_sleeping (s : State) : s.advance.sleeping = s.sleeping := rfl
@[simp] theorem advance_sImmhi (s : State) : s.advance.sImmhi = s.sImmhi := rfl
@[simp] theorem advance_sFlags (s : State) : s.advance.sFlags = s.sFlags := rfl
@[simp] theorem advance_mem (s : State) : s.advance.mem = s.mem := rfl
@[simp] theorem advance_upper (s : State) : s.advance.upper = s.upper := rfl
@[simp] theorem advance_irqIn (s : State) : s.advance.irqIn = s.irqIn := rfl
@[simp] theorem advance_irqTaken (s : State) : s.advance.irqTaken = s.irqTaken := rfl
@[simp] theorem advance_portIn (s : State) : s.advance.portIn = s.portIn := rfl
@[simp] theorem advance_portTaken (s : State) : s.advance.portTaken = s.portTaken := rfl
@[simp] theorem advance_events (s : State) : s.advance.events = s.events := rfl
@[simp] theorem advance_platform (s : State) : s.advance.platform = s.platform := rfl
@[simp] theorem advance_params (s : State) : s.advance.params = s.params := rfl
@[simp] theorem advance_code (s : State) : s.advance.code = s.code := rfl
@[simp] theorem readReg_advance (s : State) (j : RegNum) : s.advance.readReg j = s.readReg j := rfl

@[simp] theorem jump_regs (s : State) (t : Word) : (s.jump t).regs = s.regs := rfl
@[simp] theorem jump_pc (s : State) (t : Word) : (s.jump t).pc = t := rfl
@[simp] theorem jump_flags (s : State) (t : Word) : (s.jump t).flags = s.flags := rfl
@[simp] theorem jump_immhi (s : State) (t : Word) : (s.jump t).immhi = 0 := rfl
@[simp] theorem jump_ie (s : State) (t : Word) : (s.jump t).ie = s.ie := rfl
@[simp] theorem jump_sleeping (s : State) (t : Word) : (s.jump t).sleeping = s.sleeping := rfl
@[simp] theorem jump_sImmhi (s : State) (t : Word) : (s.jump t).sImmhi = s.sImmhi := rfl
@[simp] theorem jump_sFlags (s : State) (t : Word) : (s.jump t).sFlags = s.sFlags := rfl
@[simp] theorem jump_mem (s : State) (t : Word) : (s.jump t).mem = s.mem := rfl
@[simp] theorem jump_upper (s : State) (t : Word) : (s.jump t).upper = s.upper := rfl
@[simp] theorem jump_irqIn (s : State) (t : Word) : (s.jump t).irqIn = s.irqIn := rfl
@[simp] theorem jump_irqTaken (s : State) (t : Word) : (s.jump t).irqTaken = s.irqTaken := rfl
@[simp] theorem jump_portIn (s : State) (t : Word) : (s.jump t).portIn = s.portIn := rfl
@[simp] theorem jump_portTaken (s : State) (t : Word) : (s.jump t).portTaken = s.portTaken := rfl
@[simp] theorem jump_events (s : State) (t : Word) : (s.jump t).events = s.events := rfl
@[simp] theorem jump_platform (s : State) (t : Word) : (s.jump t).platform = s.platform := rfl
@[simp] theorem jump_params (s : State) (t : Word) : (s.jump t).params = s.params := rfl
@[simp] theorem jump_code (s : State) (t : Word) : (s.jump t).code = s.code := rfl
@[simp] theorem readReg_jump (s : State) (t : Word) (j : RegNum) : (s.jump t).readReg j = s.readReg j := rfl

@[simp] theorem setFlags_regs (s : State) (f : Flags) : (s.setFlags f).regs = s.regs := rfl
@[simp] theorem setFlags_pc (s : State) (f : Flags) : (s.setFlags f).pc = s.pc := rfl
@[simp] theorem setFlags_flags (s : State) (f : Flags) : (s.setFlags f).flags = f := rfl
@[simp] theorem setFlags_immhi (s : State) (f : Flags) : (s.setFlags f).immhi = s.immhi := rfl
@[simp] theorem setFlags_ie (s : State) (f : Flags) : (s.setFlags f).ie = s.ie := rfl
@[simp] theorem setFlags_sleeping (s : State) (f : Flags) : (s.setFlags f).sleeping = s.sleeping := rfl
@[simp] theorem setFlags_sImmhi (s : State) (f : Flags) : (s.setFlags f).sImmhi = s.sImmhi := rfl
@[simp] theorem setFlags_sFlags (s : State) (f : Flags) : (s.setFlags f).sFlags = s.sFlags := rfl
@[simp] theorem setFlags_mem (s : State) (f : Flags) : (s.setFlags f).mem = s.mem := rfl
@[simp] theorem setFlags_upper (s : State) (f : Flags) : (s.setFlags f).upper = s.upper := rfl
@[simp] theorem setFlags_irqIn (s : State) (f : Flags) : (s.setFlags f).irqIn = s.irqIn := rfl
@[simp] theorem setFlags_irqTaken (s : State) (f : Flags) : (s.setFlags f).irqTaken = s.irqTaken := rfl
@[simp] theorem setFlags_portIn (s : State) (f : Flags) : (s.setFlags f).portIn = s.portIn := rfl
@[simp] theorem setFlags_portTaken (s : State) (f : Flags) : (s.setFlags f).portTaken = s.portTaken := rfl
@[simp] theorem setFlags_events (s : State) (f : Flags) : (s.setFlags f).events = s.events := rfl
@[simp] theorem setFlags_platform (s : State) (f : Flags) : (s.setFlags f).platform = s.platform := rfl
@[simp] theorem setFlags_params (s : State) (f : Flags) : (s.setFlags f).params = s.params := rfl
@[simp] theorem setFlags_code (s : State) (f : Flags) : (s.setFlags f).code = s.code := rfl
@[simp] theorem readReg_setFlags (s : State) (f : Flags) (j : RegNum) : (s.setFlags f).readReg j = s.readReg j := rfl

@[simp] theorem setPrefix_regs (s : State) (h : BitVec 12) : (s.setPrefix h).regs = s.regs := rfl
@[simp] theorem setPrefix_pc (s : State) (h : BitVec 12) : (s.setPrefix h).pc = s.nextPc := rfl
@[simp] theorem setPrefix_flags (s : State) (h : BitVec 12) : (s.setPrefix h).flags = s.flags := rfl
@[simp] theorem setPrefix_immhi (s : State) (h : BitVec 12) : (s.setPrefix h).immhi = h := rfl
@[simp] theorem setPrefix_ie (s : State) (h : BitVec 12) : (s.setPrefix h).ie = s.ie := rfl
@[simp] theorem setPrefix_sleeping (s : State) (h : BitVec 12) : (s.setPrefix h).sleeping = s.sleeping := rfl
@[simp] theorem setPrefix_sImmhi (s : State) (h : BitVec 12) : (s.setPrefix h).sImmhi = s.sImmhi := rfl
@[simp] theorem setPrefix_sFlags (s : State) (h : BitVec 12) : (s.setPrefix h).sFlags = s.sFlags := rfl
@[simp] theorem setPrefix_mem (s : State) (h : BitVec 12) : (s.setPrefix h).mem = s.mem := rfl
@[simp] theorem setPrefix_upper (s : State) (h : BitVec 12) : (s.setPrefix h).upper = s.upper := rfl
@[simp] theorem setPrefix_irqIn (s : State) (h : BitVec 12) : (s.setPrefix h).irqIn = s.irqIn := rfl
@[simp] theorem setPrefix_irqTaken (s : State) (h : BitVec 12) : (s.setPrefix h).irqTaken = s.irqTaken := rfl
@[simp] theorem setPrefix_portIn (s : State) (h : BitVec 12) : (s.setPrefix h).portIn = s.portIn := rfl
@[simp] theorem setPrefix_portTaken (s : State) (h : BitVec 12) : (s.setPrefix h).portTaken = s.portTaken := rfl
@[simp] theorem setPrefix_events (s : State) (h : BitVec 12) : (s.setPrefix h).events = s.events := rfl
@[simp] theorem setPrefix_platform (s : State) (h : BitVec 12) : (s.setPrefix h).platform = s.platform := rfl
@[simp] theorem setPrefix_params (s : State) (h : BitVec 12) : (s.setPrefix h).params = s.params := rfl
@[simp] theorem setPrefix_code (s : State) (h : BitVec 12) : (s.setPrefix h).code = s.code := rfl
@[simp] theorem readReg_setPrefix (s : State) (h : BitVec 12) (j : RegNum) : (s.setPrefix h).readReg j = s.readReg j := rfl

@[simp] theorem setContext_regs (s : State) (v : Word) : (s.setContext v).regs = s.regs := rfl
@[simp] theorem setContext_pc (s : State) (v : Word) : (s.setContext v).pc = s.pc := rfl
@[simp] theorem setContext_flags (s : State) (v : Word) : (s.setContext v).flags = s.flags := rfl
@[simp] theorem setContext_immhi (s : State) (v : Word) : (s.setContext v).immhi = s.immhi := rfl
@[simp] theorem setContext_ie (s : State) (v : Word) : (s.setContext v).ie = s.ie := rfl
@[simp] theorem setContext_sleeping (s : State) (v : Word) : (s.setContext v).sleeping = s.sleeping := rfl
@[simp] theorem setContext_sImmhi (s : State) (v : Word) : (s.setContext v).sImmhi = v.extractLsb' 4 12 := rfl
@[simp] theorem setContext_sFlags (s : State) (v : Word) : (s.setContext v).sFlags = v.extractLsb' 0 4 := rfl
@[simp] theorem setContext_mem (s : State) (v : Word) : (s.setContext v).mem = s.mem := rfl
@[simp] theorem setContext_upper (s : State) (v : Word) : (s.setContext v).upper = s.upper := rfl
@[simp] theorem setContext_irqIn (s : State) (v : Word) : (s.setContext v).irqIn = s.irqIn := rfl
@[simp] theorem setContext_irqTaken (s : State) (v : Word) : (s.setContext v).irqTaken = s.irqTaken := rfl
@[simp] theorem setContext_portIn (s : State) (v : Word) : (s.setContext v).portIn = s.portIn := rfl
@[simp] theorem setContext_portTaken (s : State) (v : Word) : (s.setContext v).portTaken = s.portTaken := rfl
@[simp] theorem setContext_events (s : State) (v : Word) : (s.setContext v).events = s.events := rfl
@[simp] theorem setContext_platform (s : State) (v : Word) : (s.setContext v).platform = s.platform := rfl
@[simp] theorem setContext_params (s : State) (v : Word) : (s.setContext v).params = s.params := rfl
@[simp] theorem setContext_code (s : State) (v : Word) : (s.setContext v).code = s.code := rfl
@[simp] theorem readReg_setContext (s : State) (v : Word) (j : RegNum) : (s.setContext v).readReg j = s.readReg j := rfl

@[simp] theorem setIe_regs (s : State) (b : Bool) : (s.setIe b).regs = s.regs := rfl
@[simp] theorem setIe_pc (s : State) (b : Bool) : (s.setIe b).pc = s.pc := rfl
@[simp] theorem setIe_flags (s : State) (b : Bool) : (s.setIe b).flags = s.flags := rfl
@[simp] theorem setIe_immhi (s : State) (b : Bool) : (s.setIe b).immhi = s.immhi := rfl
@[simp] theorem setIe_ie (s : State) (b : Bool) : (s.setIe b).ie = b := rfl
@[simp] theorem setIe_sleeping (s : State) (b : Bool) : (s.setIe b).sleeping = s.sleeping := rfl
@[simp] theorem setIe_sImmhi (s : State) (b : Bool) : (s.setIe b).sImmhi = s.sImmhi := rfl
@[simp] theorem setIe_sFlags (s : State) (b : Bool) : (s.setIe b).sFlags = s.sFlags := rfl
@[simp] theorem setIe_mem (s : State) (b : Bool) : (s.setIe b).mem = s.mem := rfl
@[simp] theorem setIe_upper (s : State) (b : Bool) : (s.setIe b).upper = s.upper := rfl
@[simp] theorem setIe_irqIn (s : State) (b : Bool) : (s.setIe b).irqIn = s.irqIn := rfl
@[simp] theorem setIe_irqTaken (s : State) (b : Bool) : (s.setIe b).irqTaken = s.irqTaken := rfl
@[simp] theorem setIe_portIn (s : State) (b : Bool) : (s.setIe b).portIn = s.portIn := rfl
@[simp] theorem setIe_portTaken (s : State) (b : Bool) : (s.setIe b).portTaken = s.portTaken := rfl
@[simp] theorem setIe_events (s : State) (b : Bool) : (s.setIe b).events = s.events := rfl
@[simp] theorem setIe_platform (s : State) (b : Bool) : (s.setIe b).platform = s.platform := rfl
@[simp] theorem setIe_params (s : State) (b : Bool) : (s.setIe b).params = s.params := rfl
@[simp] theorem setIe_code (s : State) (b : Bool) : (s.setIe b).code = s.code := rfl
@[simp] theorem readReg_setIe (s : State) (b : Bool) (j : RegNum) : (s.setIe b).readReg j = s.readReg j := rfl

@[simp] theorem enterSleep_regs (s : State) : s.enterSleep.regs = s.regs := rfl
@[simp] theorem enterSleep_pc (s : State) : s.enterSleep.pc = s.pc := rfl
@[simp] theorem enterSleep_flags (s : State) : s.enterSleep.flags = s.flags := rfl
@[simp] theorem enterSleep_immhi (s : State) : s.enterSleep.immhi = s.immhi := rfl
@[simp] theorem enterSleep_ie (s : State) : s.enterSleep.ie = s.ie := rfl
@[simp] theorem enterSleep_sleeping (s : State) : s.enterSleep.sleeping = true := rfl
@[simp] theorem enterSleep_sImmhi (s : State) : s.enterSleep.sImmhi = s.sImmhi := rfl
@[simp] theorem enterSleep_sFlags (s : State) : s.enterSleep.sFlags = s.sFlags := rfl
@[simp] theorem enterSleep_mem (s : State) : s.enterSleep.mem = s.mem := rfl
@[simp] theorem enterSleep_upper (s : State) : s.enterSleep.upper = s.upper := rfl
@[simp] theorem enterSleep_irqIn (s : State) : s.enterSleep.irqIn = s.irqIn := rfl
@[simp] theorem enterSleep_irqTaken (s : State) : s.enterSleep.irqTaken = s.irqTaken := rfl
@[simp] theorem enterSleep_portIn (s : State) : s.enterSleep.portIn = s.portIn := rfl
@[simp] theorem enterSleep_portTaken (s : State) : s.enterSleep.portTaken = s.portTaken := rfl
@[simp] theorem enterSleep_events (s : State) : s.enterSleep.events = s.events := rfl
@[simp] theorem enterSleep_platform (s : State) : s.enterSleep.platform = s.platform := rfl
@[simp] theorem enterSleep_params (s : State) : s.enterSleep.params = s.params := rfl
@[simp] theorem enterSleep_code (s : State) : s.enterSleep.code = s.code := rfl
@[simp] theorem readReg_enterSleep (s : State) (j : RegNum) : s.enterSleep.readReg j = s.readReg j := rfl

@[simp] theorem tookPort_regs (s : State) (p v : Word) : (s.tookPort p v).regs = s.regs := rfl
@[simp] theorem tookPort_pc (s : State) (p v : Word) : (s.tookPort p v).pc = s.pc := rfl
@[simp] theorem tookPort_flags (s : State) (p v : Word) : (s.tookPort p v).flags = s.flags := rfl
@[simp] theorem tookPort_immhi (s : State) (p v : Word) : (s.tookPort p v).immhi = s.immhi := rfl
@[simp] theorem tookPort_ie (s : State) (p v : Word) : (s.tookPort p v).ie = s.ie := rfl
@[simp] theorem tookPort_sleeping (s : State) (p v : Word) : (s.tookPort p v).sleeping = s.sleeping := rfl
@[simp] theorem tookPort_sImmhi (s : State) (p v : Word) : (s.tookPort p v).sImmhi = s.sImmhi := rfl
@[simp] theorem tookPort_sFlags (s : State) (p v : Word) : (s.tookPort p v).sFlags = s.sFlags := rfl
@[simp] theorem tookPort_mem (s : State) (p v : Word) : (s.tookPort p v).mem = s.mem := rfl
@[simp] theorem tookPort_upper (s : State) (p v : Word) : (s.tookPort p v).upper = s.upper := rfl
@[simp] theorem tookPort_irqIn (s : State) (p v : Word) : (s.tookPort p v).irqIn = s.irqIn := rfl
@[simp] theorem tookPort_irqTaken (s : State) (p v : Word) : (s.tookPort p v).irqTaken = s.irqTaken := rfl
@[simp] theorem tookPort_portIn (s : State) (p v : Word) : (s.tookPort p v).portIn = s.portIn.tail := rfl
@[simp] theorem tookPort_portTaken (s : State) (p v : Word) : (s.tookPort p v).portTaken = s.portTaken + 1 := rfl
@[simp] theorem tookPort_events (s : State) (p v : Word) : (s.tookPort p v).events = s.events ++ [.read p v] := rfl
@[simp] theorem tookPort_platform (s : State) (p v : Word) : (s.tookPort p v).platform = s.platform := rfl
@[simp] theorem tookPort_params (s : State) (p v : Word) : (s.tookPort p v).params = s.params := rfl
@[simp] theorem tookPort_code (s : State) (p v : Word) : (s.tookPort p v).code = s.code := rfl
@[simp] theorem readReg_tookPort (s : State) (p v : Word) (j : RegNum) : (s.tookPort p v).readReg j = s.readReg j := rfl

@[simp] theorem pollIrq_regs (s : State) : s.pollIrq.regs = s.regs := rfl
@[simp] theorem pollIrq_pc (s : State) : s.pollIrq.pc = s.pc := rfl
@[simp] theorem pollIrq_flags (s : State) : s.pollIrq.flags = s.flags := rfl
@[simp] theorem pollIrq_immhi (s : State) : s.pollIrq.immhi = s.immhi := rfl
@[simp] theorem pollIrq_ie (s : State) : s.pollIrq.ie = s.ie := rfl
@[simp] theorem pollIrq_sleeping (s : State) : s.pollIrq.sleeping = s.sleeping := rfl
@[simp] theorem pollIrq_sImmhi (s : State) : s.pollIrq.sImmhi = s.sImmhi := rfl
@[simp] theorem pollIrq_sFlags (s : State) : s.pollIrq.sFlags = s.sFlags := rfl
@[simp] theorem pollIrq_mem (s : State) : s.pollIrq.mem = s.mem := rfl
@[simp] theorem pollIrq_upper (s : State) : s.pollIrq.upper = s.upper := rfl
@[simp] theorem pollIrq_irqIn (s : State) : s.pollIrq.irqIn = s.irqIn.tail := rfl
@[simp] theorem pollIrq_irqTaken (s : State) : s.pollIrq.irqTaken = s.irqTaken + 1 := rfl
@[simp] theorem pollIrq_portIn (s : State) : s.pollIrq.portIn = s.portIn := rfl
@[simp] theorem pollIrq_portTaken (s : State) : s.pollIrq.portTaken = s.portTaken := rfl
@[simp] theorem pollIrq_events (s : State) : s.pollIrq.events = s.events := rfl
@[simp] theorem pollIrq_platform (s : State) : s.pollIrq.platform = s.platform := rfl
@[simp] theorem pollIrq_params (s : State) : s.pollIrq.params = s.params := rfl
@[simp] theorem pollIrq_code (s : State) : s.pollIrq.code = s.code := rfl
@[simp] theorem readReg_pollIrq (s : State) (j : RegNum) : s.pollIrq.readReg j = s.readReg j := rfl

@[simp] theorem interruptEntry_regs (s : State) : (interruptEntry s).regs = (s.writeReg s.params.ilrIndex s.pc).regs := rfl
@[simp] theorem interruptEntry_pc (s : State) : (interruptEntry s).pc = s.intVector := rfl
@[simp] theorem interruptEntry_flags (s : State) : (interruptEntry s).flags = s.flags := rfl
@[simp] theorem interruptEntry_immhi (s : State) : (interruptEntry s).immhi = 0 := rfl
@[simp] theorem interruptEntry_ie (s : State) : (interruptEntry s).ie = false := rfl
@[simp] theorem interruptEntry_sleeping (s : State) : (interruptEntry s).sleeping = false := rfl
@[simp] theorem interruptEntry_sImmhi (s : State) : (interruptEntry s).sImmhi = s.immhi := rfl
@[simp] theorem interruptEntry_sFlags (s : State) : (interruptEntry s).sFlags = s.flags.pack := rfl
@[simp] theorem interruptEntry_mem (s : State) : (interruptEntry s).mem = s.mem := rfl
@[simp] theorem interruptEntry_upper (s : State) : (interruptEntry s).upper = s.upper := rfl
@[simp] theorem interruptEntry_irqIn (s : State) : (interruptEntry s).irqIn = s.irqIn := rfl
@[simp] theorem interruptEntry_irqTaken (s : State) : (interruptEntry s).irqTaken = s.irqTaken := rfl
@[simp] theorem interruptEntry_portIn (s : State) : (interruptEntry s).portIn = s.portIn := rfl
@[simp] theorem interruptEntry_portTaken (s : State) : (interruptEntry s).portTaken = s.portTaken := rfl
@[simp] theorem interruptEntry_events (s : State) : (interruptEntry s).events = s.events := rfl
@[simp] theorem interruptEntry_platform (s : State) : (interruptEntry s).platform = s.platform := rfl
@[simp] theorem interruptEntry_params (s : State) : (interruptEntry s).params = s.params := rfl
@[simp] theorem interruptEntry_code (s : State) : (interruptEntry s).code = s.code := rfl

@[simp] theorem interruptReturn_regs (s : State) : (interruptReturn s).regs = s.regs := rfl
@[simp] theorem interruptReturn_pc (s : State) : (interruptReturn s).pc = s.readReg s.params.ilrIndex := rfl
@[simp] theorem interruptReturn_flags (s : State) : (interruptReturn s).flags = Flags.unpack s.sFlags := rfl
@[simp] theorem interruptReturn_immhi (s : State) : (interruptReturn s).immhi = s.sImmhi := rfl
@[simp] theorem interruptReturn_ie (s : State) : (interruptReturn s).ie = true := rfl
@[simp] theorem interruptReturn_sleeping (s : State) : (interruptReturn s).sleeping = s.sleeping := rfl
@[simp] theorem interruptReturn_sImmhi (s : State) : (interruptReturn s).sImmhi = s.sImmhi := rfl
@[simp] theorem interruptReturn_sFlags (s : State) : (interruptReturn s).sFlags = s.sFlags := rfl
@[simp] theorem interruptReturn_mem (s : State) : (interruptReturn s).mem = s.mem := rfl
@[simp] theorem interruptReturn_upper (s : State) : (interruptReturn s).upper = s.upper := rfl
@[simp] theorem interruptReturn_irqIn (s : State) : (interruptReturn s).irqIn = s.irqIn := rfl
@[simp] theorem interruptReturn_irqTaken (s : State) : (interruptReturn s).irqTaken = s.irqTaken := rfl
@[simp] theorem interruptReturn_portIn (s : State) : (interruptReturn s).portIn = s.portIn := rfl
@[simp] theorem interruptReturn_portTaken (s : State) : (interruptReturn s).portTaken = s.portTaken := rfl
@[simp] theorem interruptReturn_events (s : State) : (interruptReturn s).events = s.events := rfl
@[simp] theorem interruptReturn_platform (s : State) : (interruptReturn s).platform = s.platform := rfl
@[simp] theorem interruptReturn_params (s : State) : (interruptReturn s).params = s.params := rfl
@[simp] theorem interruptReturn_code (s : State) : (interruptReturn s).code = s.code := rfl
@[simp] theorem readReg_interruptReturn (s : State) (j : RegNum) : (interruptReturn s).readReg j = s.readReg j := rfl

@[simp] theorem upperWriteByte_regs (s : State) (ea : Word) (b : Byte) : (upperWriteByte s ea b).regs = s.regs := rfl
@[simp] theorem upperWriteByte_pc (s : State) (ea : Word) (b : Byte) : (upperWriteByte s ea b).pc = s.pc := rfl
@[simp] theorem upperWriteByte_flags (s : State) (ea : Word) (b : Byte) : (upperWriteByte s ea b).flags = s.flags := rfl
@[simp] theorem upperWriteByte_immhi (s : State) (ea : Word) (b : Byte) : (upperWriteByte s ea b).immhi = s.immhi := rfl
@[simp] theorem upperWriteByte_ie (s : State) (ea : Word) (b : Byte) : (upperWriteByte s ea b).ie = s.ie := rfl
@[simp] theorem upperWriteByte_sleeping (s : State) (ea : Word) (b : Byte) : (upperWriteByte s ea b).sleeping = s.sleeping := rfl
@[simp] theorem upperWriteByte_sImmhi (s : State) (ea : Word) (b : Byte) : (upperWriteByte s ea b).sImmhi = s.sImmhi := rfl
@[simp] theorem upperWriteByte_sFlags (s : State) (ea : Word) (b : Byte) : (upperWriteByte s ea b).sFlags = s.sFlags := rfl
@[simp] theorem upperWriteByte_mem (s : State) (ea : Word) (b : Byte) : (upperWriteByte s ea b).mem = s.mem := rfl
@[simp] theorem upperWriteByte_upper (s : State) (ea : Word) (b : Byte) : (upperWriteByte s ea b).upper = s.upper.write (upperLoc ea) b := rfl
@[simp] theorem upperWriteByte_irqIn (s : State) (ea : Word) (b : Byte) : (upperWriteByte s ea b).irqIn = s.irqIn := rfl
@[simp] theorem upperWriteByte_irqTaken (s : State) (ea : Word) (b : Byte) : (upperWriteByte s ea b).irqTaken = s.irqTaken := rfl
@[simp] theorem upperWriteByte_portIn (s : State) (ea : Word) (b : Byte) : (upperWriteByte s ea b).portIn = s.portIn := rfl
@[simp] theorem upperWriteByte_portTaken (s : State) (ea : Word) (b : Byte) : (upperWriteByte s ea b).portTaken = s.portTaken := rfl
@[simp] theorem upperWriteByte_events (s : State) (ea : Word) (b : Byte) : (upperWriteByte s ea b).events = s.events := rfl
@[simp] theorem upperWriteByte_platform (s : State) (ea : Word) (b : Byte) : (upperWriteByte s ea b).platform = s.platform := rfl
@[simp] theorem upperWriteByte_params (s : State) (ea : Word) (b : Byte) : (upperWriteByte s ea b).params = s.params := rfl
@[simp] theorem upperWriteByte_code (s : State) (ea : Word) (b : Byte) : (upperWriteByte s ea b).code = s.code := rfl
@[simp] theorem readReg_upperWriteByte (s : State) (ea : Word) (b : Byte) (j : RegNum) : (upperWriteByte s ea b).readReg j = s.readReg j := rfl

@[simp] theorem nextPc_eq (s : State) : s.nextPc = s.pc + 2 := rfl

/-- Which registers discard their writes is a matter of the parameters alone. -/
theorem discards_of_params {s t : State} (h : t.params = s.params) (i : RegNum) : t.discards i = s.discards i := by
  simp [State.discards, h]

/-- Only register 0 can discard a write (R21). -/
@[simp] theorem discards_of_ne (s : State) (i : RegNum) (h : i ≠ 0#7) : s.discards i = false := by
  simp [State.discards, h]

/-- Register 0 discards its writes under R0_ZERO (R21). -/
@[simp] theorem discards_zero (s : State) : s.discards 0#7 = s.params.r0Zero := by
  simp [State.discards]

/-- A register that discards its writes reads zero (R21). -/
theorem readReg_of_discards (s : State) (i : RegNum) (h : s.discards i = true) : s.readReg i = 0 := by
  simp [State.readReg, h]

/-- Any other register reads what it holds. -/
theorem readReg_of_keeps (s : State) (i : RegNum) (h : s.discards i = false) : s.readReg i = s.regs[i.toNat]'i.isLt := by
  simp [State.readReg, h]

/-- A write that is discarded changes nothing (R9, R21). -/
theorem writeReg_of_discards (s : State) (i : RegNum) (v : Word) (h : s.discards i = true) : s.writeReg i v = s := by
  simp [State.writeReg, h]

/-- What a register reads after a write (R9, R21). -/
theorem readReg_writeReg (s : State) (i j : RegNum) (v : Word) :
    (s.writeReg i v).readReg j = if j = i ∧ s.discards i = false then v else s.readReg j := by
  by_cases hi : s.discards i = true
  · rw [writeReg_of_discards s i v hi, if_neg (by simp [hi])]
  · have hi := Bool.eq_false_iff.2 hi
    have hp : ∀ k, (s.writeReg i v).discards k = s.discards k := discards_of_params rfl
    by_cases hj : s.discards j = true
    · rw [if_neg (by rintro ⟨rfl, _⟩; simp_all), readReg_of_discards _ _ hj, readReg_of_discards _ _ (by rw [hp, hj])]
    · have hj := Bool.eq_false_iff.2 hj
      rw [readReg_of_keeps _ _ hj, readReg_of_keeps _ _ (by rw [hp, hj])]
      simp only [writeReg_regs, hi, Bool.false_eq_true, if_false, Vector.getElem_set, ← BitVec.toNat_inj, and_true]
      by_cases h : i.toNat = j.toNat
      · rw [if_pos h, if_pos h.symm]
      · rw [if_neg h, if_neg (Ne.symm h)]

@[simp] theorem readReg_writeReg_same (s : State) (i : RegNum) (v : Word) (h : s.discards i = false) :
    (s.writeReg i v).readReg i = v := by
  rw [readReg_writeReg, if_pos ⟨rfl, h⟩]

@[simp] theorem readReg_writeReg_other (s : State) (i j : RegNum) (v : Word) (h : j ≠ i) :
    (s.writeReg i v).readReg j = s.readReg j := by
  rw [readReg_writeReg, if_neg fun hc => h hc.1]

/-- The interrupt link register is the only register an interrupt writes (R325). -/
theorem readReg_interruptEntry (s : State) (j : RegNum) :
    (interruptEntry s).readReg j =
      if j = s.params.ilrIndex ∧ s.discards s.params.ilrIndex = false then s.pc else s.readReg j :=
  readReg_writeReg s s.params.ilrIndex j s.pc

/-- The hard-wired zero stays where it is stored: under R0_ZERO no write reaches it. -/
theorem writeReg_regs_zero (s : State) (i : RegNum) (v : Word) (hz : s.params.r0Zero = true) :
    (s.writeReg i v).regs[0] = s.regs[0] := by
  by_cases hi : i = 0#7
  · rw [writeReg_of_discards s i v (by simp [hi, hz])]
  · have h : i.toNat ≠ 0 := fun h => hi (BitVec.eq_of_toNat_eq h)
    simp [hi, h]

@[simp] theorem loadCode_regs (s : State) (a v : Word) : (s.loadCode a v).regs = s.regs := rfl
@[simp] theorem loadCode_pc (s : State) (a v : Word) : (s.loadCode a v).pc = s.pc := rfl
@[simp] theorem loadCode_flags (s : State) (a v : Word) : (s.loadCode a v).flags = s.flags := rfl
@[simp] theorem loadCode_immhi (s : State) (a v : Word) : (s.loadCode a v).immhi = s.immhi := rfl
@[simp] theorem loadCode_ie (s : State) (a v : Word) : (s.loadCode a v).ie = s.ie := rfl
@[simp] theorem loadCode_sleeping (s : State) (a v : Word) : (s.loadCode a v).sleeping = s.sleeping := rfl
@[simp] theorem loadCode_sImmhi (s : State) (a v : Word) : (s.loadCode a v).sImmhi = s.sImmhi := rfl
@[simp] theorem loadCode_sFlags (s : State) (a v : Word) : (s.loadCode a v).sFlags = s.sFlags := rfl
@[simp] theorem loadCode_mem (s : State) (a v : Word) : (s.loadCode a v).mem = if s.params.unifiedMem then s.mem.loadWord s.params.endian a v else s.mem := rfl
@[simp] theorem loadCode_code (s : State) (a v : Word) : (s.loadCode a v).code = if s.params.unifiedMem then s.code else s.code.loadWord s.params.endian a v := rfl
@[simp] theorem loadCode_upper (s : State) (a v : Word) : (s.loadCode a v).upper = s.upper := rfl
@[simp] theorem loadCode_irqIn (s : State) (a v : Word) : (s.loadCode a v).irqIn = s.irqIn := rfl
@[simp] theorem loadCode_irqTaken (s : State) (a v : Word) : (s.loadCode a v).irqTaken = s.irqTaken := rfl
@[simp] theorem loadCode_portIn (s : State) (a v : Word) : (s.loadCode a v).portIn = s.portIn := rfl
@[simp] theorem loadCode_portTaken (s : State) (a v : Word) : (s.loadCode a v).portTaken = s.portTaken := rfl
@[simp] theorem loadCode_events (s : State) (a v : Word) : (s.loadCode a v).events = s.events := rfl
@[simp] theorem loadCode_platform (s : State) (a v : Word) : (s.loadCode a v).platform = s.platform := rfl
@[simp] theorem loadCode_params (s : State) (a v : Word) : (s.loadCode a v).params = s.params := rfl

/-- With UNIFIED_MEM the fetch reads main memory (R66, D2). -/
theorem codeMem_unified (s : State) (h : s.params.unifiedMem = true) : s.codeMem = s.mem := by
  simp [State.codeMem, h]

/-- Without UNIFIED_MEM the fetch reads the code memory (R66, D2). -/
theorem codeMem_separate (s : State) (h : s.params.unifiedMem = false) : s.codeMem = s.code := by
  simp [State.codeMem, h]

/-- A word placed in the program is placed in the memory that the fetch reads, whichever it is (R361). -/
theorem codeMem_loadCode (s : State) (a v : Word) : (s.loadCode a v).codeMem = s.codeMem.loadWord s.params.endian a v := by
  cases h : s.params.unifiedMem <;> simp [State.codeMem, h]

/-- The flags come back from the four bits they are saved in (R28). -/
@[simp] theorem unpack_pack (f : Flags) : Flags.unpack f.pack = f := by
  obtain ⟨z, c, s, v⟩ := f
  revert z c s v
  decide

/-- The four bits come back from the flags they stand for (R28). -/
@[simp] theorem pack_unpack (b : BitVec 4) : (Flags.unpack b).pack = b := by
  revert b
  decide

end Sys2Proof.Machine
end

