-- ==== Sys2Proof/Laws/Ops.lean ====
section
/-! SUPPORT. What each shared operation can do, once: where it answers a next value, and which fields it leaves as they are. -/

namespace Sys2Proof.Machine

theorem next_inj {α : Type} (a b : α) : (Host.Outcome.next a : Res α) = .next b ↔ b = a :=
  ⟨fun h => by injection h with h; exact h.symm, fun h => by rw [h]⟩

theorem andThen_next {α β : Type} (r : Res α) (f : α → Res β) (b : β) :
    andThen r f = .next b ↔ ∃ a, r = .next a ∧ f a = .next b := by
  cases r <;> simp [andThen]

theorem memReadByte_next (s : State) (a : Word) (b : Byte) :
    memReadByte s a = .next b ↔ s.admitsMem a = true ∧ b = s.mem.read a.toNat := by
  unfold memReadByte
  by_cases h : s.admitsMem a = true
  · rw [if_pos h, next_inj]
    simp [h]
  · rw [if_neg h]
    simp [h]

theorem memReadWord_next (s : State) (a v : Word) :
    memReadWord s a = .next v ↔ a.getLsbD 0 = false ∧ s.admitsMem a = true ∧ s.admitsMem (a + 1) = true ∧
      v = joinBytes s.params.endian (s.mem.read a.toNat) (s.mem.read (a + 1).toNat) := by
  unfold memReadWord
  by_cases h : a.getLsbD 0 = true
  · rw [if_pos h]
    simp [h]
  · rw [if_neg h]
    simp only [andThen_next, memReadByte_next]
    constructor
    · rintro ⟨e, ⟨h1, rfl⟩, o, ⟨h2, rfl⟩, h3⟩
      exact ⟨by simpa using h, h1, h2, by injection h3 with h3; exact h3.symm⟩
    · rintro ⟨-, h1, h2, rfl⟩
      exact ⟨_, ⟨h1, rfl⟩, _, ⟨h2, rfl⟩, rfl⟩

theorem storeAllowed_next (s : State) (a : Word) (u : Unit) :
    storeAllowed s a = .next u ↔ s.admitsMem a = true ∧ s.isText a = false := by
  unfold storeAllowed
  cases s.admitsMem a <;> cases s.isText a <;> simp

theorem memWriteByte_next (s t : State) (a : Word) (b : Byte) :
    memWriteByte s a b = .next t ↔ s.admitsMem a = true ∧ s.isText a = false ∧
      t = { s with mem := s.mem.write a.toNat b } := by
  simp only [memWriteByte, andThen_next, storeAllowed_next]
  constructor
  · rintro ⟨_, ⟨h1, h2⟩, h3⟩
    exact ⟨h1, h2, by injection h3 with h3; exact h3.symm⟩
  · rintro ⟨h1, h2, rfl⟩
    exact ⟨(), ⟨h1, h2⟩, rfl⟩

theorem memWriteWord_next (s t : State) (a v : Word) :
    memWriteWord s a v = .next t ↔ a.getLsbD 0 = false ∧ s.admitsMem a = true ∧ s.isText a = false ∧
      s.admitsMem (a + 1) = true ∧ s.isText (a + 1) = false ∧
      t = { s with mem := (s.mem.write a.toNat (evenByte s.params.endian v)).write (a + 1).toNat (oddByte s.params.endian v) } := by
  unfold memWriteWord
  by_cases h : a.getLsbD 0 = true
  · rw [if_pos h]
    simp [h]
  · rw [if_neg h]
    simp only [andThen_next, storeAllowed_next]
    constructor
    · rintro ⟨_, ⟨h1, h2⟩, _, ⟨h3, h4⟩, h5⟩
      exact ⟨by simpa using h, h1, h2, h3, h4, by injection h5 with h5; exact h5.symm⟩
    · rintro ⟨-, h1, h2, h3, h4, rfl⟩
      exact ⟨(), ⟨h1, h2⟩, (), ⟨h3, h4⟩, rfl⟩

theorem upperReadWord_next (s : State) (ea v : Word) :
    upperReadWord s ea = .next v ↔ ea.getLsbD 0 = false ∧
      v = joinBytes s.params.endian (upperReadByte s ea) (upperReadByte s (ea + 1)) := by
  unfold upperReadWord
  by_cases h : ea.getLsbD 0 = true
  · rw [if_pos h]
    simp [h]
  · rw [if_neg h]
    rw [next_inj, Bool.eq_false_iff]
    exact ⟨fun e => ⟨h, e⟩, fun e => e.2⟩

theorem upperWriteWord_next (s t : State) (ea v : Word) :
    upperWriteWord s ea v = .next t ↔ ea.getLsbD 0 = false ∧
      t = upperWriteByte (upperWriteByte s ea (evenByte s.params.endian v)) (ea + 1) (oddByte s.params.endian v) := by
  unfold upperWriteWord
  by_cases h : ea.getLsbD 0 = true
  · rw [if_pos h]
    simp [h]
  · rw [if_neg h]
    rw [next_inj, Bool.eq_false_iff]
    exact ⟨fun e => ⟨h, e⟩, fun e => e.2⟩

theorem portRead_next (s : State) (p v : Word) :
    portRead s p = .next v ↔ s.admitsPort p = true ∧ v = s.portDatum p := by
  unfold portRead
  by_cases h : s.admitsPort p = true
  · rw [if_pos h, next_inj]
    simp [h]
  · rw [if_neg h]
    simp [h]

theorem portWrite_next (s t : State) (p v : Word) :
    portWrite s p v = .next t ↔ s.admitsPort p = true ∧ t = { s with events := s.events ++ [.write p v] } := by
  unfold portWrite
  by_cases h : s.admitsPort p = true
  · rw [if_pos h, next_inj]
    simp [h]
  · rw [if_neg h]
    simp [h]

theorem fetchByte_next (s : State) (a : Word) (b : Byte) :
    fetchByte s a = .next b ↔ s.admitsFetch a = true ∧ b = s.codeMem.read a.toNat := by
  unfold fetchByte
  by_cases h : s.admitsFetch a = true
  · rw [if_pos h, next_inj]
    simp [h]
  · rw [if_neg h]
    simp [h]

theorem fetchWord_next (s : State) (w : Word) :
    fetchWord s = .next w ↔ s.pc.getLsbD 0 = false ∧ s.admitsFetch s.pc = true ∧ s.admitsFetch (s.pc + 1) = true ∧
      w = joinBytes s.params.endian (s.codeMem.read s.pc.toNat) (s.codeMem.read (s.pc + 1).toNat) := by
  unfold fetchWord
  by_cases h : s.pc.getLsbD 0 = true
  · rw [if_pos h]
    simp [h]
  · rw [if_neg h]
    simp only [andThen_next, fetchByte_next]
    constructor
    · rintro ⟨e, ⟨h1, rfl⟩, o, ⟨h2, rfl⟩, h3⟩
      exact ⟨by simpa using h, h1, h2, by injection h3 with h3; exact h3.symm⟩
    · rintro ⟨-, h1, h2, rfl⟩
      exact ⟨_, ⟨h1, rfl⟩, _, ⟨h2, rfl⟩, rfl⟩

/-! ### Where they stop -/

/-- A read where the platform has no memory is refused (R60). -/
theorem memReadByte_absent (s : State) (a : Word) (h : s.admitsMem a = false) :
    memReadByte s a = .refused (.memoryNotAdmitted a) := by
  simp [memReadByte, h]

/-- A store where the platform has no memory is refused (R60). -/
theorem storeAllowed_absent (s : State) (a : Word) (h : s.admitsMem a = false) :
    storeAllowed s a = .refused (.memoryNotAdmitted a) := by
  simp [storeAllowed, h]

/-- A store into the program text is refused (R66). -/
theorem storeAllowed_text (s : State) (a : Word) (h : s.admitsMem a = true) (ht : s.isText a = true) :
    storeAllowed s a = .refused (.storeToProgramText a) := by
  simp [storeAllowed, h, ht]

/-- A fetch where the platform has no program memory is refused (R60). -/
theorem fetchByte_absent (s : State) (a : Word) (h : s.admitsFetch a = false) :
    fetchByte s a = .refused (.memoryNotAdmitted a) := by
  simp [fetchByte, h]

/-- Bit 0 of an even address is set in the address after it, and the rest is the same word address. -/
theorem even_succ (a : Word) (h : a.getLsbD 0 = false) :
    (a + 1).getLsbD 0 = true ∧ (a + 1).extractLsb' 1 15 = a.extractLsb' 1 15 ∧ (a + 1).toNat = a.toNat + 1 := by
  have hmod : a.toNat % 2 = 0 := by
    have : a.toNat.testBit 0 = false := h
    simpa [Nat.testBit_zero] using this
  have hlt := a.isLt
  have hs : (a + 1).toNat = a.toNat + 1 := by
    rw [BitVec.toNat_add]
    simp
    omega
  refine ⟨?_, ?_, hs⟩
  · show (a + 1).toNat.testBit 0 = true
    rw [hs]
    simp [Nat.testBit_zero]
    omega
  · apply BitVec.eq_of_toNat_eq
    simp only [BitVec.extractLsb'_toNat, hs, Nat.shiftRight_one]
    congr 1
    omega

@[simp] theorem branch_regs (s : State) (taken : Bool) (target : Word) : (s.branch taken target).regs = s.regs := by unfold State.branch; split <;> rfl
@[simp] theorem branch_flags (s : State) (taken : Bool) (target : Word) : (s.branch taken target).flags = s.flags := by unfold State.branch; split <;> rfl
@[simp] theorem branch_ie (s : State) (taken : Bool) (target : Word) : (s.branch taken target).ie = s.ie := by unfold State.branch; split <;> rfl
@[simp] theorem branch_sleeping (s : State) (taken : Bool) (target : Word) : (s.branch taken target).sleeping = s.sleeping := by unfold State.branch; split <;> rfl
@[simp] theorem branch_sImmhi (s : State) (taken : Bool) (target : Word) : (s.branch taken target).sImmhi = s.sImmhi := by unfold State.branch; split <;> rfl
@[simp] theorem branch_sFlags (s : State) (taken : Bool) (target : Word) : (s.branch taken target).sFlags = s.sFlags := by unfold State.branch; split <;> rfl
@[simp] theorem branch_mem (s : State) (taken : Bool) (target : Word) : (s.branch taken target).mem = s.mem := by unfold State.branch; split <;> rfl
@[simp] theorem branch_upper (s : State) (taken : Bool) (target : Word) : (s.branch taken target).upper = s.upper := by unfold State.branch; split <;> rfl
@[simp] theorem branch_irqIn (s : State) (taken : Bool) (target : Word) : (s.branch taken target).irqIn = s.irqIn := by unfold State.branch; split <;> rfl
@[simp] theorem branch_irqTaken (s : State) (taken : Bool) (target : Word) : (s.branch taken target).irqTaken = s.irqTaken := by unfold State.branch; split <;> rfl
@[simp] theorem branch_portIn (s : State) (taken : Bool) (target : Word) : (s.branch taken target).portIn = s.portIn := by unfold State.branch; split <;> rfl
@[simp] theorem branch_portTaken (s : State) (taken : Bool) (target : Word) : (s.branch taken target).portTaken = s.portTaken := by unfold State.branch; split <;> rfl
@[simp] theorem branch_events (s : State) (taken : Bool) (target : Word) : (s.branch taken target).events = s.events := by unfold State.branch; split <;> rfl
@[simp] theorem branch_platform (s : State) (taken : Bool) (target : Word) : (s.branch taken target).platform = s.platform := by unfold State.branch; split <;> rfl
@[simp] theorem branch_params (s : State) (taken : Bool) (target : Word) : (s.branch taken target).params = s.params := by unfold State.branch; split <;> rfl
@[simp] theorem branch_code (s : State) (taken : Bool) (target : Word) : (s.branch taken target).code = s.code := by unfold State.branch; split <;> rfl
@[simp] theorem branch_immhi (s : State) (taken : Bool) (target : Word) : (s.branch taken target).immhi = 0 := by unfold State.branch; split <;> rfl

@[simp] theorem branchLink_flags (s : State) (target : Word) : (s.branchLink target).flags = s.flags := rfl
@[simp] theorem branchLink_ie (s : State) (target : Word) : (s.branchLink target).ie = s.ie := rfl
@[simp] theorem branchLink_sleeping (s : State) (target : Word) : (s.branchLink target).sleeping = s.sleeping := rfl
@[simp] theorem branchLink_sImmhi (s : State) (target : Word) : (s.branchLink target).sImmhi = s.sImmhi := rfl
@[simp] theorem branchLink_sFlags (s : State) (target : Word) : (s.branchLink target).sFlags = s.sFlags := rfl
@[simp] theorem branchLink_mem (s : State) (target : Word) : (s.branchLink target).mem = s.mem := rfl
@[simp] theorem branchLink_upper (s : State) (target : Word) : (s.branchLink target).upper = s.upper := rfl
@[simp] theorem branchLink_irqIn (s : State) (target : Word) : (s.branchLink target).irqIn = s.irqIn := rfl
@[simp] theorem branchLink_irqTaken (s : State) (target : Word) : (s.branchLink target).irqTaken = s.irqTaken := rfl
@[simp] theorem branchLink_portIn (s : State) (target : Word) : (s.branchLink target).portIn = s.portIn := rfl
@[simp] theorem branchLink_portTaken (s : State) (target : Word) : (s.branchLink target).portTaken = s.portTaken := rfl
@[simp] theorem branchLink_events (s : State) (target : Word) : (s.branchLink target).events = s.events := rfl
@[simp] theorem branchLink_platform (s : State) (target : Word) : (s.branchLink target).platform = s.platform := rfl
@[simp] theorem branchLink_params (s : State) (target : Word) : (s.branchLink target).params = s.params := rfl
@[simp] theorem branchLink_code (s : State) (target : Word) : (s.branchLink target).code = s.code := rfl
@[simp] theorem branchLink_immhi (s : State) (target : Word) : (s.branchLink target).immhi = 0 := rfl

@[simp] theorem applyAlu_ie (s : State) (op : AluOp) (d : RegNum) (a b : Word) : (applyAlu s op d a b).ie = s.ie := by unfold applyAlu; split <;> rfl
@[simp] theorem applyAlu_sleeping (s : State) (op : AluOp) (d : RegNum) (a b : Word) : (applyAlu s op d a b).sleeping = s.sleeping := by unfold applyAlu; split <;> rfl
@[simp] theorem applyAlu_sImmhi (s : State) (op : AluOp) (d : RegNum) (a b : Word) : (applyAlu s op d a b).sImmhi = s.sImmhi := by unfold applyAlu; split <;> rfl
@[simp] theorem applyAlu_sFlags (s : State) (op : AluOp) (d : RegNum) (a b : Word) : (applyAlu s op d a b).sFlags = s.sFlags := by unfold applyAlu; split <;> rfl
@[simp] theorem applyAlu_mem (s : State) (op : AluOp) (d : RegNum) (a b : Word) : (applyAlu s op d a b).mem = s.mem := by unfold applyAlu; split <;> rfl
@[simp] theorem applyAlu_upper (s : State) (op : AluOp) (d : RegNum) (a b : Word) : (applyAlu s op d a b).upper = s.upper := by unfold applyAlu; split <;> rfl
@[simp] theorem applyAlu_irqIn (s : State) (op : AluOp) (d : RegNum) (a b : Word) : (applyAlu s op d a b).irqIn = s.irqIn := by unfold applyAlu; split <;> rfl
@[simp] theorem applyAlu_irqTaken (s : State) (op : AluOp) (d : RegNum) (a b : Word) : (applyAlu s op d a b).irqTaken = s.irqTaken := by unfold applyAlu; split <;> rfl
@[simp] theorem applyAlu_portIn (s : State) (op : AluOp) (d : RegNum) (a b : Word) : (applyAlu s op d a b).portIn = s.portIn := by unfold applyAlu; split <;> rfl
@[simp] theorem applyAlu_portTaken (s : State) (op : AluOp) (d : RegNum) (a b : Word) : (applyAlu s op d a b).portTaken = s.portTaken := by unfold applyAlu; split <;> rfl
@[simp] theorem applyAlu_events (s : State) (op : AluOp) (d : RegNum) (a b : Word) : (applyAlu s op d a b).events = s.events := by unfold applyAlu; split <;> rfl
@[simp] theorem applyAlu_platform (s : State) (op : AluOp) (d : RegNum) (a b : Word) : (applyAlu s op d a b).platform = s.platform := by unfold applyAlu; split <;> rfl
@[simp] theorem applyAlu_params (s : State) (op : AluOp) (d : RegNum) (a b : Word) : (applyAlu s op d a b).params = s.params := by unfold applyAlu; split <;> rfl
@[simp] theorem applyAlu_code (s : State) (op : AluOp) (d : RegNum) (a b : Word) : (applyAlu s op d a b).code = s.code := by unfold applyAlu; split <;> rfl
@[simp] theorem applyAlu_immhi (s : State) (op : AluOp) (d : RegNum) (a b : Word) : (applyAlu s op d a b).immhi = 0 := by unfold applyAlu; split <;> rfl
@[simp] theorem applyAlu_pc (s : State) (op : AluOp) (d : RegNum) (a b : Word) : (applyAlu s op d a b).pc = s.pc + 2 := by unfold applyAlu; split <;> rfl

@[simp] theorem condAlu_ie (s : State) (cond : Cond) (op : AluOp) (d : RegNum) (a b : Word) : (condAlu s cond op d a b).ie = s.ie := by unfold condAlu; split <;> simp
@[simp] theorem condAlu_sleeping (s : State) (cond : Cond) (op : AluOp) (d : RegNum) (a b : Word) : (condAlu s cond op d a b).sleeping = s.sleeping := by unfold condAlu; split <;> simp
@[simp] theorem condAlu_sImmhi (s : State) (cond : Cond) (op : AluOp) (d : RegNum) (a b : Word) : (condAlu s cond op d a b).sImmhi = s.sImmhi := by unfold condAlu; split <;> simp
@[simp] theorem condAlu_sFlags (s : State) (cond : Cond) (op : AluOp) (d : RegNum) (a b : Word) : (condAlu s cond op d a b).sFlags = s.sFlags := by unfold condAlu; split <;> simp
@[simp] theorem condAlu_mem (s : State) (cond : Cond) (op : AluOp) (d : RegNum) (a b : Word) : (condAlu s cond op d a b).mem = s.mem := by unfold condAlu; split <;> simp
@[simp] theorem condAlu_upper (s : State) (cond : Cond) (op : AluOp) (d : RegNum) (a b : Word) : (condAlu s cond op d a b).upper = s.upper := by unfold condAlu; split <;> simp
@[simp] theorem condAlu_irqIn (s : State) (cond : Cond) (op : AluOp) (d : RegNum) (a b : Word) : (condAlu s cond op d a b).irqIn = s.irqIn := by unfold condAlu; split <;> simp
@[simp] theorem condAlu_irqTaken (s : State) (cond : Cond) (op : AluOp) (d : RegNum) (a b : Word) : (condAlu s cond op d a b).irqTaken = s.irqTaken := by unfold condAlu; split <;> simp
@[simp] theorem condAlu_portIn (s : State) (cond : Cond) (op : AluOp) (d : RegNum) (a b : Word) : (condAlu s cond op d a b).portIn = s.portIn := by unfold condAlu; split <;> simp
@[simp] theorem condAlu_portTaken (s : State) (cond : Cond) (op : AluOp) (d : RegNum) (a b : Word) : (condAlu s cond op d a b).portTaken = s.portTaken := by unfold condAlu; split <;> simp
@[simp] theorem condAlu_events (s : State) (cond : Cond) (op : AluOp) (d : RegNum) (a b : Word) : (condAlu s cond op d a b).events = s.events := by unfold condAlu; split <;> simp
@[simp] theorem condAlu_platform (s : State) (cond : Cond) (op : AluOp) (d : RegNum) (a b : Word) : (condAlu s cond op d a b).platform = s.platform := by unfold condAlu; split <;> simp
@[simp] theorem condAlu_params (s : State) (cond : Cond) (op : AluOp) (d : RegNum) (a b : Word) : (condAlu s cond op d a b).params = s.params := by unfold condAlu; split <;> simp
@[simp] theorem condAlu_code (s : State) (cond : Cond) (op : AluOp) (d : RegNum) (a b : Word) : (condAlu s cond op d a b).code = s.code := by unfold condAlu; split <;> simp
@[simp] theorem condAlu_immhi (s : State) (cond : Cond) (op : AluOp) (d : RegNum) (a b : Word) : (condAlu s cond op d a b).immhi = 0 := by unfold condAlu; split <;> simp
@[simp] theorem condAlu_pc (s : State) (cond : Cond) (op : AluOp) (d : RegNum) (a b : Word) : (condAlu s cond op d a b).pc = s.pc + 2 := by unfold condAlu; split <;> simp

@[simp] theorem condMove_flags (s : State) (cond : Cond) (d : RegNum) (v : Word) : (s.condMove cond d v).flags = s.flags := by unfold State.condMove; split <;> rfl
@[simp] theorem condMove_ie (s : State) (cond : Cond) (d : RegNum) (v : Word) : (s.condMove cond d v).ie = s.ie := by unfold State.condMove; split <;> rfl
@[simp] theorem condMove_sleeping (s : State) (cond : Cond) (d : RegNum) (v : Word) : (s.condMove cond d v).sleeping = s.sleeping := by unfold State.condMove; split <;> rfl
@[simp] theorem condMove_sImmhi (s : State) (cond : Cond) (d : RegNum) (v : Word) : (s.condMove cond d v).sImmhi = s.sImmhi := by unfold State.condMove; split <;> rfl
@[simp] theorem condMove_sFlags (s : State) (cond : Cond) (d : RegNum) (v : Word) : (s.condMove cond d v).sFlags = s.sFlags := by unfold State.condMove; split <;> rfl
@[simp] theorem condMove_mem (s : State) (cond : Cond) (d : RegNum) (v : Word) : (s.condMove cond d v).mem = s.mem := by unfold State.condMove; split <;> rfl
@[simp] theorem condMove_upper (s : State) (cond : Cond) (d : RegNum) (v : Word) : (s.condMove cond d v).upper = s.upper := by unfold State.condMove; split <;> rfl
@[simp] theorem condMove_irqIn (s : State) (cond : Cond) (d : RegNum) (v : Word) : (s.condMove cond d v).irqIn = s.irqIn := by unfold State.condMove; split <;> rfl
@[simp] theorem condMove_irqTaken (s : State) (cond : Cond) (d : RegNum) (v : Word) : (s.condMove cond d v).irqTaken = s.irqTaken := by unfold State.condMove; split <;> rfl
@[simp] theorem condMove_portIn (s : State) (cond : Cond) (d : RegNum) (v : Word) : (s.condMove cond d v).portIn = s.portIn := by unfold State.condMove; split <;> rfl
@[simp] theorem condMove_portTaken (s : State) (cond : Cond) (d : RegNum) (v : Word) : (s.condMove cond d v).portTaken = s.portTaken := by unfold State.condMove; split <;> rfl
@[simp] theorem condMove_events (s : State) (cond : Cond) (d : RegNum) (v : Word) : (s.condMove cond d v).events = s.events := by unfold State.condMove; split <;> rfl
@[simp] theorem condMove_platform (s : State) (cond : Cond) (d : RegNum) (v : Word) : (s.condMove cond d v).platform = s.platform := by unfold State.condMove; split <;> rfl
@[simp] theorem condMove_params (s : State) (cond : Cond) (d : RegNum) (v : Word) : (s.condMove cond d v).params = s.params := by unfold State.condMove; split <;> rfl
@[simp] theorem condMove_code (s : State) (cond : Cond) (d : RegNum) (v : Word) : (s.condMove cond d v).code = s.code := by unfold State.condMove; split <;> rfl
@[simp] theorem condMove_immhi (s : State) (cond : Cond) (d : RegNum) (v : Word) : (s.condMove cond d v).immhi = 0 := by unfold State.condMove; split <;> rfl
@[simp] theorem condMove_pc (s : State) (cond : Cond) (d : RegNum) (v : Word) : (s.condMove cond d v).pc = s.pc + 2 := by unfold State.condMove; split <;> rfl

@[simp] theorem applyShift_ie (s : State) (op : ShiftOp) (r : RegNum) : (applyShift s op r).ie = s.ie := rfl
@[simp] theorem applyShift_sleeping (s : State) (op : ShiftOp) (r : RegNum) : (applyShift s op r).sleeping = s.sleeping := rfl
@[simp] theorem applyShift_sImmhi (s : State) (op : ShiftOp) (r : RegNum) : (applyShift s op r).sImmhi = s.sImmhi := rfl
@[simp] theorem applyShift_sFlags (s : State) (op : ShiftOp) (r : RegNum) : (applyShift s op r).sFlags = s.sFlags := rfl
@[simp] theorem applyShift_mem (s : State) (op : ShiftOp) (r : RegNum) : (applyShift s op r).mem = s.mem := rfl
@[simp] theorem applyShift_upper (s : State) (op : ShiftOp) (r : RegNum) : (applyShift s op r).upper = s.upper := rfl
@[simp] theorem applyShift_irqIn (s : State) (op : ShiftOp) (r : RegNum) : (applyShift s op r).irqIn = s.irqIn := rfl
@[simp] theorem applyShift_irqTaken (s : State) (op : ShiftOp) (r : RegNum) : (applyShift s op r).irqTaken = s.irqTaken := rfl
@[simp] theorem applyShift_portIn (s : State) (op : ShiftOp) (r : RegNum) : (applyShift s op r).portIn = s.portIn := rfl
@[simp] theorem applyShift_portTaken (s : State) (op : ShiftOp) (r : RegNum) : (applyShift s op r).portTaken = s.portTaken := rfl
@[simp] theorem applyShift_events (s : State) (op : ShiftOp) (r : RegNum) : (applyShift s op r).events = s.events := rfl
@[simp] theorem applyShift_platform (s : State) (op : ShiftOp) (r : RegNum) : (applyShift s op r).platform = s.platform := rfl
@[simp] theorem applyShift_params (s : State) (op : ShiftOp) (r : RegNum) : (applyShift s op r).params = s.params := rfl
@[simp] theorem applyShift_code (s : State) (op : ShiftOp) (r : RegNum) : (applyShift s op r).code = s.code := rfl
@[simp] theorem applyShift_immhi (s : State) (op : ShiftOp) (r : RegNum) : (applyShift s op r).immhi = 0 := rfl
@[simp] theorem applyShift_pc (s : State) (op : ShiftOp) (r : RegNum) : (applyShift s op r).pc = s.pc + 2 := rfl

/-- The flags after an ALU instruction. -/
@[simp] theorem applyAlu_flags (s : State) (op : AluOp) (d : RegNum) (a b : Word) :
    (applyAlu s op d a b).flags = (alu s.params op a b s.flags).flags := rfl

/-- The registers after an ALU instruction: only the destination, and only where the operation writes its result. -/
theorem readReg_applyAlu (s : State) (op : AluOp) (d j : RegNum) (a b : Word) :
    (applyAlu s op d a b).readReg j =
      if resultWritten op = true ∧ j = d ∧ s.discards d = false then aluResult s.params.muluReading op a b s.flags.c
      else s.readReg j := by
  show ((if (alu s.params op a b s.flags).written then s.writeReg d (alu s.params op a b s.flags).result else s)).readReg j = _
  by_cases h : resultWritten op = true
  · simp [alu, h, readReg_writeReg]
  · simp [alu, h]

/-- The hard-wired zero stays where it is stored through an ALU instruction. -/
theorem applyAlu_regs_zero (s : State) (op : AluOp) (d : RegNum) (a b : Word) (hz : s.params.r0Zero = true) :
    (applyAlu s op d a b).regs[0] = s.regs[0] := by
  show ((if (alu s.params op a b s.flags).written then s.writeReg d (alu s.params op a b s.flags).result else s)).regs[0] = _
  split
  · exact writeReg_regs_zero _ _ _ hz
  · rfl

end Sys2Proof.Machine
end

