-- ==== Sys2Proof/Laws/Exec.lean ====
section
/-! SUPPORT. What an instruction can do, once: the effects named in Sys2Proof/Safety.lean hold of the shared operations, each
family's instructions are one operation of its number, and `exec_shape` lists every next state that exec can give. Later proofs
cite these and unfold no meaning. -/

namespace Sys2Proof.Machine

/-! ### The effects of the shared operations -/

/-- Equal fields give `SameRest`. -/
theorem sameRest_of_eq {s t : State} (mem : t.mem = s.mem) (upper : t.upper = s.upper) (portIn : t.portIn = s.portIn)
    (portTaken : t.portTaken = s.portTaken) (events : t.events = s.events) (irqIn : t.irqIn = s.irqIn)
    (irqTaken : t.irqTaken = s.irqTaken) (platform : t.platform = s.platform) (params : t.params = s.params)
    (code : t.code = s.code) (ie : t.ie = s.ie) (sleeping : t.sleeping = s.sleeping) (sImmhi : t.sImmhi = s.sImmhi)
    (sFlags : t.sFlags = s.sFlags) : s.SameRest t :=
  ⟨fun _ => by rw [mem], fun _ => by rw [upper], ⟨portIn, portTaken, events⟩, ⟨irqIn, irqTaken, ⟨platform, params, code⟩⟩,
    ⟨ie, sleeping⟩, ⟨sImmhi, sFlags⟩⟩

theorem wroteReg_writeReg (s : State) (d : RegNum) (v : Word) : s.WroteReg (s.writeReg d v) d v :=
  fun j => readReg_writeReg s d j v

theorem wroteReg_branchLink (s : State) (target : Word) :
    s.WroteReg (s.branchLink target) s.params.lrIndex (s.pc + 2) :=
  wroteReg_writeReg s s.params.lrIndex (s.pc + 2)

theorem wroteReg_interruptEntry (s : State) : s.WroteReg (interruptEntry s) s.params.ilrIndex s.pc :=
  readReg_interruptEntry s

theorem aluDone_applyAlu (s : State) (op : AluOp) (d : RegNum) (a b : Word) : s.AluDone (applyAlu s op d a b) op d a b := by
  refine ⟨fun h j => ?_, fun h j => ?_, rfl, ⟨by simp, by simp⟩, by apply sameRest_of_eq <;> simp⟩
  · have h' : resultWritten op = true := h
    rw [readReg_applyAlu]
    simp [h', alu]
  · have h' : resultWritten op = false := h
    rw [readReg_applyAlu]
    simp [h']

theorem moveDone_writeReg (s : State) (d : RegNum) (v : Word) : s.MoveDone (s.writeReg d v).advance d v :=
  ⟨fun j => by rw [readReg_advance]; exact wroteReg_writeReg s d v j, rfl, ⟨rfl, rfl⟩, by apply sameRest_of_eq <;> rfl⟩

theorem nothingDone_advance (s : State) : s.NothingDone s.advance :=
  ⟨fun _ => rfl, rfl, ⟨rfl, rfl⟩, by apply sameRest_of_eq <;> rfl⟩

theorem shiftDone_applyShift (s : State) (op : ShiftOp) (r : RegNum) :
    s.ShiftDone (applyShift s op r) r (shiftResult op (s.readReg r) s.flags.c) (shiftOut op (s.readReg r)) :=
  ⟨fun j => wroteReg_writeReg s r _ j, rfl, ⟨rfl, rfl⟩, by apply sameRest_of_eq <;> rfl⟩

/-! ### Each family by the number of its operation or condition -/

theorem exec_class2 (op : AluOp) (d r : LowReg) (s : State) :
    exec (Instr.class2 op d r) s = .next (applyAlu s op (low d) (s.readReg (low d)) (s.readReg (low r))) := by
  cases op <;> rfl

theorem exec_class3 (op : AluOp) (d : LowReg) (lo : Imm4) (s : State) (h1 : op ≠ .rrn) (h2 : op ≠ .rln) (h3 : op ≠ .bswap) :
    exec (Instr.class3 op d lo) s = .next (applyAlu s op (low d) (s.readReg (low d)) (imm16 s lo)) := by
  cases op <;> first | rfl | contradiction

theorem exec_branch (cond : Cond) (r : LowReg) (lo : Imm4) (s : State) (h : cond ≠ .l) :
    exec (Instr.branch cond r lo) s = .next (s.branch (cond.holds s.flags) (branchTarget s r lo)) := by
  cases cond <;> first | rfl | contradiction

theorem exec_condMove (cond : Cond) (d r : LowReg) (s : State) :
    exec (Instr.condMove cond d r) s = .next (s.condMove cond (low d) (s.readReg (low r))) := by
  cases cond <;> rfl

theorem exec_movCc (cond : Cond) (d r : LowReg) (s : State) :
    exec (.movCc cond d r) s = .next (s.condMove cond (low d) (s.readReg (low r))) := by
  cases cond <;> rfl

theorem exec_class6 (op : AluOp) (dir : Dir) (rx : RegNum) (rl : LowReg) (s : State) :
    exec (Instr.class6 op dir rx rl) s =
      .next (applyAlu s op (dir.dest rx rl) (s.readReg (dir.dest rx rl)) (s.readReg (dir.src rx rl))) := by
  cases op <;> rfl

theorem exec_class9 (op : AluOp) (cond : Cond) (d a b : LowReg) (s : State) :
    exec (Instr.class9 op cond d a b) s = .next (condAlu s cond op (low d) (s.readReg (low a)) (s.readReg (low b))) := by
  cases op <;> rfl

theorem exec_class6Word (dir : Dir) (rx : RegNum) (rl : LowReg) (s : State) :
    exec (.class6Word dir rx rl) s = exec (Instr.class6 (prefixOp s.immhi) dir rx rl) s := by
  show execClass6Word dir rx rl s = _
  unfold execClass6Word
  cases prefixOp s.immhi <;> rfl

theorem exec_class9Word (d a b : LowReg) (s : State) :
    exec (.class9Word d a b) s = exec (Instr.class9 (prefixOp s.immhi) (prefixCond s.immhi) d a b) s := by
  show execClass9Word d a b s = _
  unfold execClass9Word
  cases prefixOp s.immhi <;> rfl

/-! ### Every next state of exec -/

/-- `Shape s i t`: the instruction `i` at `s` can give the next state `t`. One constructor for each way to complete. -/
inductive Shape (s : State) : Instr → State → Prop where
  | class2 (op d r) : Shape s (Instr.class2 op d r) (applyAlu s op (low d) (s.readReg (low d)) (s.readReg (low r)))
  | class3 (op d lo) : Shape s (Instr.class3 op d lo) (applyAlu s op (low d) (s.readReg (low d)) (imm16 s lo))
  | class6 (op dir rx rl) :
      Shape s (Instr.class6 op dir rx rl) (applyAlu s op (dir.dest rx rl) (s.readReg (dir.dest rx rl)) (s.readReg (dir.src rx rl)))
  | class6Word (dir rx rl) :
      Shape s (.class6Word dir rx rl)
        (applyAlu s (prefixOp s.immhi) (dir.dest rx rl) (s.readReg (dir.dest rx rl)) (s.readReg (dir.src rx rl)))
  | class9 (op cond d a b) :
      Shape s (Instr.class9 op cond d a b) (condAlu s cond op (low d) (s.readReg (low a)) (s.readReg (low b)))
  | class9Word (d a b) :
      Shape s (.class9Word d a b)
        (condAlu s (prefixCond s.immhi) (prefixOp s.immhi) (low d) (s.readReg (low a)) (s.readReg (low b)))
  | branch (cond r lo) (h : cond ≠ .l) :
      Shape s (Instr.branch cond r lo) (s.branch (cond.holds s.flags) (branchTarget s r lo))
  | bl (r lo) : Shape s (.bl r lo) (s.branchLink (branchTarget s r lo))
  | condMove (cond d r) : Shape s (Instr.condMove cond d r) (s.condMove cond (low d) (s.readReg (low r)))
  | movCc (cond d r) : Shape s (.movCc cond d r) (s.condMove cond (low d) (s.readReg (low r)))
  | nop : Shape s .nop s.advance
  | ret : Shape s .ret (s.jump (s.readReg s.params.lrIndex))
  | iret : Shape s .iret (interruptReturn s)
  | stix (r) : Shape s (.stix r) (s.writeReg (low r) s.context).advance
  | rsix (r) : Shape s (.rsix r) (s.setContext (s.readReg (low r))).advance
  | shift (op r i) (h : i ∈ [Instr.asr r, .lsr r, .lsl r, .rolc r, .rorc r, .rol r, .ror r]) :
      Shape s i (applyShift s op (low r))
  | flag (f : Flags) (i) (h : i ∈ [Instr.cc, .sc, .cz, .sz, .cs, .ss]) (hv : f.v = s.flags.v) : Shape s i (s.setFlags f).advance
  | stf (r) : Shape s (.stf r) (s.writeReg (low r) (0#12 ++ s.flags.pack)).advance
  | rsf (r) : Shape s (.rsf r) (s.setFlags (Flags.unpack ((s.readReg (low r)).extractLsb' 0 4))).advance
  | cli : Shape s .cli (s.setIe false).advance
  | sti : Shape s .sti (s.setIe true).advance
  | sleep : Shape s .sleep s.enterSleep.advance
  | imm (h) : Shape s (.imm h) (s.setPrefix h)
  | load (idx d lo v i)
      (h : i ∈ [Instr.ldb idx d lo, .ldbsx idx d lo, .ld idx d lo, .uld idx d, .uldb idx d, .uldbsx idx d]) :
      Shape s i (s.writeReg (low d) v).advance
  | stb (idx r lo t) (h : memWriteByte s (effAddr s idx lo) ((s.readReg (low r)).extractLsb' 0 8) = .next t) :
      Shape s (.stb idx r lo) t.advance
  | st (idx r lo t) (h : memWriteWord s (effAddr s idx lo) (s.readReg (low r)) = .next t) : Shape s (.st idx r lo) t.advance
  | ustb (idx r) :
      Shape s (.ustb idx r) (upperWriteByte s (upperAddr s idx) ((s.readReg (low r)).extractLsb' 0 8)).advance
  | ust (idx r t) (h : upperWriteWord s (upperAddr s idx) (s.readReg (low r)) = .next t) : Shape s (.ust idx r) t.advance
  | inPort (rp rv lo v) :
      Shape s (.inPort rp rv lo) ((s.tookPort (portAddr s rp lo) v).writeReg (low rv) v).advance
  | outPort (rp rv lo t) (h : portWrite s (portAddr s rp lo) (s.readReg (low rv)) = .next t) :
      Shape s (.outPort rp rv lo) t.advance

/-- Every next state of exec is one that `Shape` lists. -/
theorem exec_shape (i : Instr) (s t : State) (h : exec i s = .next t) : Shape s i t := by
  cases i
  case class6Word =>
    rw [exec_class6Word, exec_class6] at h
    obtain rfl := Host.Outcome.next.inj h
    exact .class6Word ..
  case class9Word =>
    rw [exec_class9Word, exec_class9] at h
    obtain rfl := Host.Outcome.next.inj h
    exact .class9Word ..
  case movCc =>
    rw [exec_movCc] at h
    obtain rfl := Host.Outcome.next.inj h
    exact .movCc ..
  case ldbsx idx r lo =>
    obtain ⟨_, h1, h2⟩ := (andThen_next _ _ _).1 h
    obtain rfl := Host.Outcome.next.inj h2
    exact .load idx r lo _ _ (by simp)
  case ldb idx r lo =>
    obtain ⟨_, h1, h2⟩ := (andThen_next _ _ _).1 h
    obtain rfl := Host.Outcome.next.inj h2
    exact .load idx r lo _ _ (by simp)
  case ld idx r lo =>
    obtain ⟨_, h1, h2⟩ := (andThen_next _ _ _).1 h
    obtain rfl := Host.Outcome.next.inj h2
    exact .load idx r lo _ _ (by simp)
  case uld idx r =>
    obtain ⟨_, h1, h2⟩ := (andThen_next _ _ _).1 h
    obtain rfl := Host.Outcome.next.inj h2
    exact .load idx r 0 _ _ (by simp)
  case stb idx r lo =>
    obtain ⟨_, h1, h2⟩ := (andThen_next _ _ _).1 h
    obtain rfl := Host.Outcome.next.inj h2
    exact .stb _ _ _ _ h1
  case st idx r lo =>
    obtain ⟨_, h1, h2⟩ := (andThen_next _ _ _).1 h
    obtain rfl := Host.Outcome.next.inj h2
    exact .st _ _ _ _ h1
  case ust idx r =>
    obtain ⟨_, h1, h2⟩ := (andThen_next _ _ _).1 h
    obtain rfl := Host.Outcome.next.inj h2
    exact .ust _ _ _ h1
  case inPort rp rv lo =>
    obtain ⟨_, h1, h2⟩ := (andThen_next _ _ _).1 h
    obtain rfl := Host.Outcome.next.inj h2
    exact .inPort ..
  case outPort rp rv lo =>
    obtain ⟨_, h1, h2⟩ := (andThen_next _ _ _).1 h
    obtain rfl := Host.Outcome.next.inj h2
    exact .outPort _ _ _ _ h1
  all_goals first
    | exact nomatch (show (Host.Outcome.fault .reservedEncoding : Res State) = .next t from h)
    | obtain rfl := Host.Outcome.next.inj h
  case uldb idx r => exact .load idx r 0 _ _ (by simp)
  case uldbsx idx r => exact .load idx r 0 _ _ (by simp)
  case ustb => exact .ustb ..
  case bl => exact .bl ..
  case nop => exact .nop
  case ret => exact .ret
  case iret => exact .iret
  case stix => exact .stix _
  case rsix => exact .rsix _
  case stf => exact .stf _
  case rsf => exact .rsf _
  case cli => exact .cli
  case sti => exact .sti
  case sleep => exact .sleep
  case imm => exact .imm _
  case asr r => exact .shift _ r _ (by simp)
  case lsr r => exact .shift _ r _ (by simp)
  case lsl r => exact .shift _ r _ (by simp)
  case rolc r => exact .shift _ r _ (by simp)
  case rorc r => exact .shift _ r _ (by simp)
  case rol r => exact .shift _ r _ (by simp)
  case ror r => exact .shift _ r _ (by simp)
  case cc => exact .flag _ _ (by simp) rfl
  case sc => exact .flag _ _ (by simp) rfl
  case cz => exact .flag _ _ (by simp) rfl
  case sz => exact .flag _ _ (by simp) rfl
  case cs => exact .flag _ _ (by simp) rfl
  case ss => exact .flag _ _ (by simp) rfl
  case movRR => exact .class2 .mov _ _
  case addRR => exact .class2 .add _ _
  case adcRR => exact .class2 .adc _ _
  case subRR => exact .class2 .sub _ _
  case sbbRR => exact .class2 .sbb _ _
  case andRR => exact .class2 .and _ _
  case orRR => exact .class2 .or _ _
  case xorRR => exact .class2 .xor _ _
  case mulRR => exact .class2 .mul _ _
  case muluRR => exact .class2 .mulu _ _
  case rrnRR => exact .class2 .rrn _ _
  case rlnRR => exact .class2 .rln _ _
  case cmpRR => exact .class2 .cmp _ _
  case testRR => exact .class2 .test _ _
  case umuluRR => exact .class2 .umulu _ _
  case bswapRR => exact .class2 .bswap _ _
  case movRI => exact .class3 .mov _ _
  case addRI => exact .class3 .add _ _
  case adcRI => exact .class3 .adc _ _
  case subRI => exact .class3 .sub _ _
  case sbbRI => exact .class3 .sbb _ _
  case andRI => exact .class3 .and _ _
  case orRI => exact .class3 .or _ _
  case xorRI => exact .class3 .xor _ _
  case mulRI => exact .class3 .mul _ _
  case muluRI => exact .class3 .mulu _ _
  case cmpRI => exact .class3 .cmp _ _
  case testRI => exact .class3 .test _ _
  case umuluRI => exact .class3 .umulu _ _
  case movX => exact .class6 .mov _ _ _
  case addX => exact .class6 .add _ _ _
  case adcX => exact .class6 .adc _ _ _
  case subX => exact .class6 .sub _ _ _
  case sbbX => exact .class6 .sbb _ _ _
  case andX => exact .class6 .and _ _ _
  case orX => exact .class6 .or _ _ _
  case xorX => exact .class6 .xor _ _ _
  case mulX => exact .class6 .mul _ _ _
  case muluX => exact .class6 .mulu _ _ _
  case rrnX => exact .class6 .rrn _ _ _
  case rlnX => exact .class6 .rln _ _ _
  case cmpX => exact .class6 .cmp _ _ _
  case testX => exact .class6 .test _ _ _
  case umuluX => exact .class6 .umulu _ _ _
  case bswapX => exact .class6 .bswap _ _ _
  case movT => exact .class9 .mov _ _ _ _
  case addT => exact .class9 .add _ _ _ _
  case adcT => exact .class9 .adc _ _ _ _
  case subT => exact .class9 .sub _ _ _ _
  case sbbT => exact .class9 .sbb _ _ _ _
  case andT => exact .class9 .and _ _ _ _
  case orT => exact .class9 .or _ _ _ _
  case xorT => exact .class9 .xor _ _ _ _
  case mulT => exact .class9 .mul _ _ _ _
  case muluT => exact .class9 .mulu _ _ _ _
  case rrnT => exact .class9 .rrn _ _ _ _
  case rlnT => exact .class9 .rln _ _ _ _
  case cmpT => exact .class9 .cmp _ _ _ _
  case testT => exact .class9 .test _ _ _ _
  case umuluT => exact .class9 .umulu _ _ _ _
  case bswapT => exact .class9 .bswap _ _ _ _
  case bz => exact .branch .z _ _ (by simp)
  case bnz => exact .branch .nz _ _ (by simp)
  case bs => exact .branch .s _ _ (by simp)
  case bns => exact .branch .ns _ _ (by simp)
  case bc => exact .branch .c _ _ (by simp)
  case bnc => exact .branch .nc _ _ (by simp)
  case bv => exact .branch .v _ _ (by simp)
  case bnv => exact .branch .nv _ _ (by simp)
  case blt => exact .branch .lt _ _ (by simp)
  case ble => exact .branch .le _ _ (by simp)
  case bgt => exact .branch .gt _ _ (by simp)
  case bge => exact .branch .ge _ _ (by simp)
  case bleu => exact .branch .leu _ _ (by simp)
  case bgtu => exact .branch .gtu _ _ (by simp)
  case ba => exact .branch .a _ _ (by simp)
  case movZ => exact .condMove .z _ _
  case movNz => exact .condMove .nz _ _
  case movS => exact .condMove .s _ _
  case movNs => exact .condMove .ns _ _
  case movC => exact .condMove .c _ _
  case movNc => exact .condMove .nc _ _
  case movV => exact .condMove .v _ _
  case movNv => exact .condMove .nv _ _
  case movLt => exact .condMove .lt _ _
  case movLe => exact .condMove .le _ _
  case movGt => exact .condMove .gt _ _
  case movGe => exact .condMove .ge _ _
  case movLeu => exact .condMove .leu _ _
  case movGtu => exact .condMove .gtu _ _
  case movA => exact .condMove .a _ _
  case movL => exact .condMove .l _ _

end Sys2Proof.Machine
end

