-- ==== Sys2Proof/Laws/PerInstr.lean ====
section
/-! SUPPORT. Families of statements about the instruction as syntax, one lemma per constructor of Instr. -/

namespace Sys2Proof.Laws.EncodeLength

/-- An instruction is encoded in one word or two, and in two only where its first word is a class 1 word (R80, R92). -/
def Statement (i : Instr) : Prop :=
  (encode i).length = 1 ∨ ((encode i).length = 2 ∧ ((encode i).head?.map nibble3) = some 0x1)

theorem nop : Statement (.nop) := Or.inl rfl

theorem ret : Statement (.ret) := Or.inl rfl

theorem iret : Statement (.iret) := Or.inl rfl

theorem stix (r : LowReg) : Statement (.stix r) := Or.inl rfl

theorem rsix (r : LowReg) : Statement (.rsix r) := Or.inl rfl

theorem asr (r : LowReg) : Statement (.asr r) := Or.inl rfl

theorem lsr (r : LowReg) : Statement (.lsr r) := Or.inl rfl

theorem lsl (r : LowReg) : Statement (.lsl r) := Or.inl rfl

theorem rolc (r : LowReg) : Statement (.rolc r) := Or.inl rfl

theorem rorc (r : LowReg) : Statement (.rorc r) := Or.inl rfl

theorem rol (r : LowReg) : Statement (.rol r) := Or.inl rfl

theorem ror (r : LowReg) : Statement (.ror r) := Or.inl rfl

theorem cc : Statement (.cc) := Or.inl rfl

theorem sc : Statement (.sc) := Or.inl rfl

theorem cz : Statement (.cz) := Or.inl rfl

theorem sz : Statement (.sz) := Or.inl rfl

theorem cs : Statement (.cs) := Or.inl rfl

theorem ss : Statement (.ss) := Or.inl rfl

theorem stf (r : LowReg) : Statement (.stf r) := Or.inl rfl

theorem rsf (r : LowReg) : Statement (.rsf r) := Or.inl rfl

theorem reservedAlu31 (r : LowReg) : Statement (.reservedAlu31 r) := Or.inl rfl

theorem reservedSub5 (b : BitVec 8) : Statement (.reservedSub5 b) := Or.inl rfl

theorem cli : Statement (.cli) := Or.inl rfl

theorem sti : Statement (.sti) := Or.inl rfl

theorem sleep : Statement (.sleep) := Or.inl rfl

theorem reservedSub8To15 (b : BitVec 11) : Statement (.reservedSub8To15 b) := Or.inl rfl

theorem reservedNopNonzero (b : BitVec 8) : Statement (.reservedNopNonzero b) := Or.inl rfl

theorem reservedRetNonzero (b : BitVec 8) : Statement (.reservedRetNonzero b) := Or.inl rfl

theorem imm (h : BitVec 12) : Statement (.imm h) := Or.inl rfl

theorem movRR (d : LowReg) (r : LowReg) : Statement (.movRR d r) := Or.inl rfl

theorem addRR (d : LowReg) (r : LowReg) : Statement (.addRR d r) := Or.inl rfl

theorem adcRR (d : LowReg) (r : LowReg) : Statement (.adcRR d r) := Or.inl rfl

theorem subRR (d : LowReg) (r : LowReg) : Statement (.subRR d r) := Or.inl rfl

theorem sbbRR (d : LowReg) (r : LowReg) : Statement (.sbbRR d r) := Or.inl rfl

theorem andRR (d : LowReg) (r : LowReg) : Statement (.andRR d r) := Or.inl rfl

theorem orRR (d : LowReg) (r : LowReg) : Statement (.orRR d r) := Or.inl rfl

theorem xorRR (d : LowReg) (r : LowReg) : Statement (.xorRR d r) := Or.inl rfl

theorem mulRR (d : LowReg) (r : LowReg) : Statement (.mulRR d r) := Or.inl rfl

theorem muluRR (d : LowReg) (r : LowReg) : Statement (.muluRR d r) := Or.inl rfl

theorem rrnRR (d : LowReg) (r : LowReg) : Statement (.rrnRR d r) := Or.inl rfl

theorem rlnRR (d : LowReg) (r : LowReg) : Statement (.rlnRR d r) := Or.inl rfl

theorem cmpRR (d : LowReg) (r : LowReg) : Statement (.cmpRR d r) := Or.inl rfl

theorem testRR (d : LowReg) (r : LowReg) : Statement (.testRR d r) := Or.inl rfl

theorem umuluRR (d : LowReg) (r : LowReg) : Statement (.umuluRR d r) := Or.inl rfl

theorem bswapRR (d : LowReg) (r : LowReg) : Statement (.bswapRR d r) := Or.inl rfl

theorem movRI (d : LowReg) (lo : Imm4) : Statement (.movRI d lo) := Or.inl rfl

theorem addRI (d : LowReg) (lo : Imm4) : Statement (.addRI d lo) := Or.inl rfl

theorem adcRI (d : LowReg) (lo : Imm4) : Statement (.adcRI d lo) := Or.inl rfl

theorem subRI (d : LowReg) (lo : Imm4) : Statement (.subRI d lo) := Or.inl rfl

theorem sbbRI (d : LowReg) (lo : Imm4) : Statement (.sbbRI d lo) := Or.inl rfl

theorem andRI (d : LowReg) (lo : Imm4) : Statement (.andRI d lo) := Or.inl rfl

theorem orRI (d : LowReg) (lo : Imm4) : Statement (.orRI d lo) := Or.inl rfl

theorem xorRI (d : LowReg) (lo : Imm4) : Statement (.xorRI d lo) := Or.inl rfl

theorem mulRI (d : LowReg) (lo : Imm4) : Statement (.mulRI d lo) := Or.inl rfl

theorem muluRI (d : LowReg) (lo : Imm4) : Statement (.muluRI d lo) := Or.inl rfl

theorem reservedClass3Op10 (d : LowReg) (lo : Imm4) : Statement (.reservedClass3Op10 d lo) := Or.inl rfl

theorem reservedClass3Op11 (d : LowReg) (lo : Imm4) : Statement (.reservedClass3Op11 d lo) := Or.inl rfl

theorem cmpRI (d : LowReg) (lo : Imm4) : Statement (.cmpRI d lo) := Or.inl rfl

theorem testRI (d : LowReg) (lo : Imm4) : Statement (.testRI d lo) := Or.inl rfl

theorem umuluRI (d : LowReg) (lo : Imm4) : Statement (.umuluRI d lo) := Or.inl rfl

theorem reservedClass3Op15 (d : LowReg) (lo : Imm4) : Statement (.reservedClass3Op15 d lo) := Or.inl rfl

theorem bz (r : LowReg) (lo : Imm4) : Statement (.bz r lo) := Or.inl rfl

theorem bnz (r : LowReg) (lo : Imm4) : Statement (.bnz r lo) := Or.inl rfl

theorem bs (r : LowReg) (lo : Imm4) : Statement (.bs r lo) := Or.inl rfl

theorem bns (r : LowReg) (lo : Imm4) : Statement (.bns r lo) := Or.inl rfl

theorem bc (r : LowReg) (lo : Imm4) : Statement (.bc r lo) := Or.inl rfl

theorem bnc (r : LowReg) (lo : Imm4) : Statement (.bnc r lo) := Or.inl rfl

theorem bv (r : LowReg) (lo : Imm4) : Statement (.bv r lo) := Or.inl rfl

theorem bnv (r : LowReg) (lo : Imm4) : Statement (.bnv r lo) := Or.inl rfl

theorem blt (r : LowReg) (lo : Imm4) : Statement (.blt r lo) := Or.inl rfl

theorem ble (r : LowReg) (lo : Imm4) : Statement (.ble r lo) := Or.inl rfl

theorem bgt (r : LowReg) (lo : Imm4) : Statement (.bgt r lo) := Or.inl rfl

theorem bge (r : LowReg) (lo : Imm4) : Statement (.bge r lo) := Or.inl rfl

theorem bleu (r : LowReg) (lo : Imm4) : Statement (.bleu r lo) := Or.inl rfl

theorem bgtu (r : LowReg) (lo : Imm4) : Statement (.bgtu r lo) := Or.inl rfl

theorem ba (r : LowReg) (lo : Imm4) : Statement (.ba r lo) := Or.inl rfl

theorem bl (r : LowReg) (lo : Imm4) : Statement (.bl r lo) := Or.inl rfl

theorem movCc (cond : Cond) (d : LowReg) (r : LowReg) : Statement (.movCc cond d r) := Or.inl rfl

theorem movZ (d : LowReg) (r : LowReg) : Statement (.movZ d r) := Or.inl rfl

theorem movNz (d : LowReg) (r : LowReg) : Statement (.movNz d r) := Or.inl rfl

theorem movS (d : LowReg) (r : LowReg) : Statement (.movS d r) := Or.inl rfl

theorem movNs (d : LowReg) (r : LowReg) : Statement (.movNs d r) := Or.inl rfl

theorem movC (d : LowReg) (r : LowReg) : Statement (.movC d r) := Or.inl rfl

theorem movNc (d : LowReg) (r : LowReg) : Statement (.movNc d r) := Or.inl rfl

theorem movV (d : LowReg) (r : LowReg) : Statement (.movV d r) := Or.inl rfl

theorem movNv (d : LowReg) (r : LowReg) : Statement (.movNv d r) := Or.inl rfl

theorem movLt (d : LowReg) (r : LowReg) : Statement (.movLt d r) := Or.inl rfl

theorem movLe (d : LowReg) (r : LowReg) : Statement (.movLe d r) := Or.inl rfl

theorem movGt (d : LowReg) (r : LowReg) : Statement (.movGt d r) := Or.inl rfl

theorem movGe (d : LowReg) (r : LowReg) : Statement (.movGe d r) := Or.inl rfl

theorem movLeu (d : LowReg) (r : LowReg) : Statement (.movLeu d r) := Or.inl rfl

theorem movGtu (d : LowReg) (r : LowReg) : Statement (.movGtu d r) := Or.inl rfl

theorem movA (d : LowReg) (r : LowReg) : Statement (.movA d r) := Or.inl rfl

theorem movL (d : LowReg) (r : LowReg) : Statement (.movL d r) := Or.inl rfl

theorem class6Word (dir : Dir) (rx : RegNum) (rl : LowReg) : Statement (.class6Word dir rx rl) := Or.inl rfl

theorem movX (dir : Dir) (rx : RegNum) (rl : LowReg) : Statement (.movX dir rx rl) := Or.inr ⟨rfl, by simp [encode, nibble3_word4]⟩

theorem addX (dir : Dir) (rx : RegNum) (rl : LowReg) : Statement (.addX dir rx rl) := Or.inr ⟨rfl, by simp [encode, nibble3_word4]⟩

theorem adcX (dir : Dir) (rx : RegNum) (rl : LowReg) : Statement (.adcX dir rx rl) := Or.inr ⟨rfl, by simp [encode, nibble3_word4]⟩

theorem subX (dir : Dir) (rx : RegNum) (rl : LowReg) : Statement (.subX dir rx rl) := Or.inr ⟨rfl, by simp [encode, nibble3_word4]⟩

theorem sbbX (dir : Dir) (rx : RegNum) (rl : LowReg) : Statement (.sbbX dir rx rl) := Or.inr ⟨rfl, by simp [encode, nibble3_word4]⟩

theorem andX (dir : Dir) (rx : RegNum) (rl : LowReg) : Statement (.andX dir rx rl) := Or.inr ⟨rfl, by simp [encode, nibble3_word4]⟩

theorem orX (dir : Dir) (rx : RegNum) (rl : LowReg) : Statement (.orX dir rx rl) := Or.inr ⟨rfl, by simp [encode, nibble3_word4]⟩

theorem xorX (dir : Dir) (rx : RegNum) (rl : LowReg) : Statement (.xorX dir rx rl) := Or.inr ⟨rfl, by simp [encode, nibble3_word4]⟩

theorem mulX (dir : Dir) (rx : RegNum) (rl : LowReg) : Statement (.mulX dir rx rl) := Or.inr ⟨rfl, by simp [encode, nibble3_word4]⟩

theorem muluX (dir : Dir) (rx : RegNum) (rl : LowReg) : Statement (.muluX dir rx rl) := Or.inr ⟨rfl, by simp [encode, nibble3_word4]⟩

theorem rrnX (dir : Dir) (rx : RegNum) (rl : LowReg) : Statement (.rrnX dir rx rl) := Or.inr ⟨rfl, by simp [encode, nibble3_word4]⟩

theorem rlnX (dir : Dir) (rx : RegNum) (rl : LowReg) : Statement (.rlnX dir rx rl) := Or.inr ⟨rfl, by simp [encode, nibble3_word4]⟩

theorem cmpX (dir : Dir) (rx : RegNum) (rl : LowReg) : Statement (.cmpX dir rx rl) := Or.inr ⟨rfl, by simp [encode, nibble3_word4]⟩

theorem testX (dir : Dir) (rx : RegNum) (rl : LowReg) : Statement (.testX dir rx rl) := Or.inr ⟨rfl, by simp [encode, nibble3_word4]⟩

theorem umuluX (dir : Dir) (rx : RegNum) (rl : LowReg) : Statement (.umuluX dir rx rl) := Or.inr ⟨rfl, by simp [encode, nibble3_word4]⟩

theorem bswapX (dir : Dir) (rx : RegNum) (rl : LowReg) : Statement (.bswapX dir rx rl) := Or.inr ⟨rfl, by simp [encode, nibble3_word4]⟩

theorem uld (idx : LowReg) (reg : LowReg) : Statement (.uld idx reg) := Or.inl rfl

theorem uldb (idx : LowReg) (reg : LowReg) : Statement (.uldb idx reg) := Or.inl rfl

theorem uldbsx (idx : LowReg) (reg : LowReg) : Statement (.uldbsx idx reg) := Or.inl rfl

theorem ust (idx : LowReg) (reg : LowReg) : Statement (.ust idx reg) := Or.inl rfl

theorem reservedClass7Flg5 (idx : LowReg) (reg : LowReg) : Statement (.reservedClass7Flg5 idx reg) := Or.inl rfl

theorem ustb (idx : LowReg) (reg : LowReg) : Statement (.ustb idx reg) := Or.inl rfl

theorem ldbsx (idx : LowReg) (reg : LowReg) (lo : Imm4) : Statement (.ldbsx idx reg lo) := Or.inl rfl

theorem class9Word (d : LowReg) (a : LowReg) (b : LowReg) : Statement (.class9Word d a b) := Or.inl rfl

theorem movT (cond : Cond) (d : LowReg) (a : LowReg) (b : LowReg) : Statement (.movT cond d a b) := Or.inr ⟨rfl, by simp [encode, nibble3_word4]⟩

theorem addT (cond : Cond) (d : LowReg) (a : LowReg) (b : LowReg) : Statement (.addT cond d a b) := Or.inr ⟨rfl, by simp [encode, nibble3_word4]⟩

theorem adcT (cond : Cond) (d : LowReg) (a : LowReg) (b : LowReg) : Statement (.adcT cond d a b) := Or.inr ⟨rfl, by simp [encode, nibble3_word4]⟩

theorem subT (cond : Cond) (d : LowReg) (a : LowReg) (b : LowReg) : Statement (.subT cond d a b) := Or.inr ⟨rfl, by simp [encode, nibble3_word4]⟩

theorem sbbT (cond : Cond) (d : LowReg) (a : LowReg) (b : LowReg) : Statement (.sbbT cond d a b) := Or.inr ⟨rfl, by simp [encode, nibble3_word4]⟩

theorem andT (cond : Cond) (d : LowReg) (a : LowReg) (b : LowReg) : Statement (.andT cond d a b) := Or.inr ⟨rfl, by simp [encode, nibble3_word4]⟩

theorem orT (cond : Cond) (d : LowReg) (a : LowReg) (b : LowReg) : Statement (.orT cond d a b) := Or.inr ⟨rfl, by simp [encode, nibble3_word4]⟩

theorem xorT (cond : Cond) (d : LowReg) (a : LowReg) (b : LowReg) : Statement (.xorT cond d a b) := Or.inr ⟨rfl, by simp [encode, nibble3_word4]⟩

theorem mulT (cond : Cond) (d : LowReg) (a : LowReg) (b : LowReg) : Statement (.mulT cond d a b) := Or.inr ⟨rfl, by simp [encode, nibble3_word4]⟩

theorem muluT (cond : Cond) (d : LowReg) (a : LowReg) (b : LowReg) : Statement (.muluT cond d a b) := Or.inr ⟨rfl, by simp [encode, nibble3_word4]⟩

theorem rrnT (cond : Cond) (d : LowReg) (a : LowReg) (b : LowReg) : Statement (.rrnT cond d a b) := Or.inr ⟨rfl, by simp [encode, nibble3_word4]⟩

theorem rlnT (cond : Cond) (d : LowReg) (a : LowReg) (b : LowReg) : Statement (.rlnT cond d a b) := Or.inr ⟨rfl, by simp [encode, nibble3_word4]⟩

theorem cmpT (cond : Cond) (d : LowReg) (a : LowReg) (b : LowReg) : Statement (.cmpT cond d a b) := Or.inr ⟨rfl, by simp [encode, nibble3_word4]⟩

theorem testT (cond : Cond) (d : LowReg) (a : LowReg) (b : LowReg) : Statement (.testT cond d a b) := Or.inr ⟨rfl, by simp [encode, nibble3_word4]⟩

theorem umuluT (cond : Cond) (d : LowReg) (a : LowReg) (b : LowReg) : Statement (.umuluT cond d a b) := Or.inr ⟨rfl, by simp [encode, nibble3_word4]⟩

theorem bswapT (cond : Cond) (d : LowReg) (a : LowReg) (b : LowReg) : Statement (.bswapT cond d a b) := Or.inr ⟨rfl, by simp [encode, nibble3_word4]⟩

theorem ldb (idx : LowReg) (reg : LowReg) (lo : Imm4) : Statement (.ldb idx reg lo) := Or.inl rfl

theorem stb (idx : LowReg) (reg : LowReg) (lo : Imm4) : Statement (.stb idx reg lo) := Or.inl rfl

theorem ld (idx : LowReg) (reg : LowReg) (lo : Imm4) : Statement (.ld idx reg lo) := Or.inl rfl

theorem st (idx : LowReg) (reg : LowReg) (lo : Imm4) : Statement (.st idx reg lo) := Or.inl rfl

theorem inPort (rp : LowReg) (rv : LowReg) (lo : Imm4) : Statement (.inPort rp rv lo) := Or.inl rfl

theorem outPort (rp : LowReg) (rv : LowReg) (lo : Imm4) : Statement (.outPort rp rv lo) := Or.inl rfl

end Sys2Proof.Laws.EncodeLength
end

