-- ==== Sys2Proof/Tests/Slice0.lean ====
section
/-! SUPPORT. The model's own tests. The words are written from the encodings of 30_encoding.md and the expected results are those
of 95_test_vectors.md, which the spec derives from its rules; nothing here is read off the model. After them, for every
obligation that has hypotheses, a witness: concrete operands and states that meet all of them, clause by clause, at boundary
values. -/

namespace Sys2Proof.Tests

open Sys2Proof Sys2Proof.Machine

/-! ### Helpers -/

/-- Flags from the digits `Z C S V` of a line of the vectors. -/
def fl (z c s v : Nat) : Flags := { z := z == 1, c := c == 1, s := s == 1, v := v == 1 }

/-- The start of a vector: pc 0x0010, the flags, and the registers named. -/
def start (f : Flags) (rs : List (RegNum × Word)) : State :=
  rs.foldl (fun s p => s.writeReg p.1 p.2) { State.reset with pc := 0x0010, flags := f }

/-- The words of one instruction, a prefix among them, executed in order. -/
def execWords (ws : List Word) (s : State) : Res State :=
  match ws with
  | [] => .next s
  | w :: rest => andThen (exec (decodeWord w) s) (execWords rest)

/-- The outcome is a next state with this property. -/
def gives (r : Res State) (p : State → Bool) : Bool :=
  match r with
  | .next t => p t
  | .fault _ => false
  | .refused _ => false

/-- The outcome is this fault. -/
def faults (r : Res State) (f : Fault) : Bool :=
  match r with
  | .next _ => false
  | .fault e => e == f
  | .refused _ => false

/-- The main memory that the vectors of memory instructions start from. -/
def dataMem : Memory :=
  [(0x0000, 0x77), (0x0001, 0x66), (0x00FE, 0xCD), (0x00FF, 0xAB), (0x0100, 0x80), (0x0101, 0x7F), (0x0102, 0x34), (0x0103, 0x12),
   (0xFFFE, 0x11), (0xFFFF, 0x22)]

/-- The start of a vector of a memory instruction. -/
def startMem (rs : List (RegNum × Word)) : State := { start (fl 0 0 0 0) rs with mem := dataMem }

/-- A line of the ALU vectors: result (none where it is not written) and flags. -/
def aluLine (op : AluOp) (a b : Word) (f : Flags) (r : Option Word) (g : Flags) : Bool :=
  (if (alu Params.spec op a b f).written then some (alu Params.spec op a b f).result else none) == r &&
    (alu Params.spec op a b f).flags == g

/-- A line of the shift vectors, operand in x[3]. -/
def shiftLine (w a : Word) (f : Flags) (r : Word) (g : Flags) : Bool :=
  gives (execWords [w] (start f [(3, a)])) fun t => t.readReg 3 == r && t.flags == g && t.pc == 0x0012

/-- Words and instruction belong together, both ways. -/
def codes (ws : List Word) (i : Instr) : Bool := decodeWords ws == some i && encode i == ws && i.wellFormed

/-! ### Well-formedness: every check refuses an ill-formed term -/

theorem test_wellFormed_refuses_nop_row : Instr.wellFormed (.reservedNopNonzero 0x00) = false := by decide
theorem test_wellFormed_refuses_ret_row : Instr.wellFormed (.reservedRetNonzero 0x00) = false := by decide
theorem test_wellFormed_refuses_iret_row : Instr.wellFormed (.reservedRetNonzero 0x01) = false := by decide
theorem test_wellFormed_accepts_reserved :
    Instr.wellFormed (.reservedNopNonzero 0x01) = true ∧ Instr.wellFormed (.reservedRetNonzero 0x02) = true := by decide

/-! ### Decoding: every constructor from a word written out from the spec -/

/-- Class 0 (R121 to R125, R144 to R146, R94): the tables of S1 to S8. -/
theorem test_decode_class0 :
    ([([0x0000], .nop),
      ([0x0100], .ret),
      ([0x0101], .iret),
      ([0x0205], .stix 5),
      ([0x030A], .rsix 10),
      ([0x0600], .cli),
      ([0x0601], .sti),
      ([0x0700], .sleep),
      ([0x0001], .reservedNopNonzero 0x01),
      ([0x00FF], .reservedNopNonzero 0xFF),
      ([0x0102], .reservedRetNonzero 0x02),
      ([0x01FF], .reservedRetNonzero 0xFF),
      ([0x0500], .reservedSub5 0x00),
      ([0x05FF], .reservedSub5 0xFF),
      ([0x0800], .reservedSub8To15 0x000),
      ([0x0FFF], .reservedSub8To15 0x7FF)] : List (List Word × Instr)).all
      (fun p => codes p.1 p.2) = true := by decide

/-- Class 0 sub-class 4 (R86, R126 to R142): 0x04(op-16)r. -/
theorem test_decode_single_register :
    ([([0x0403], .asr 3),
      ([0x0413], .lsr 3),
      ([0x0423], .lsl 3),
      ([0x0433], .rolc 3),
      ([0x0443], .rorc 3),
      ([0x0453], .rol 3),
      ([0x0463], .ror 3),
      ([0x0470], .cc),
      ([0x0480], .sc),
      ([0x0490], .cz),
      ([0x04A0], .sz),
      ([0x04B0], .cs),
      ([0x04C0], .ss),
      ([0x04D2], .stf 2),
      ([0x04E2], .rsf 2),
      ([0x04F7], .reservedAlu31 7)] : List (List Word × Instr)).all
      (fun p => codes p.1 p.2) = true := by decide

/-- Class 1 (R160): 0x1nnn. -/
theorem test_decode_class1 :
    ([([0x1123], .imm 0x123),
      ([0x1FFF], .imm 0xFFF)] : List (List Word × Instr)).all
      (fun p => codes p.1 p.2) = true := by decide

/-- Class 2 (R82, R87): 0x2ods. -/
theorem test_decode_class2 :
    ([([0x2012], .movRR 1 2),
      ([0x2112], .addRR 1 2),
      ([0x2212], .adcRR 1 2),
      ([0x2312], .subRR 1 2),
      ([0x2412], .sbbRR 1 2),
      ([0x2512], .andRR 1 2),
      ([0x2612], .orRR 1 2),
      ([0x2712], .xorRR 1 2),
      ([0x2812], .mulRR 1 2),
      ([0x2912], .muluRR 1 2),
      ([0x2A12], .rrnRR 1 2),
      ([0x2B12], .rlnRR 1 2),
      ([0x2C12], .cmpRR 1 2),
      ([0x2D12], .testRR 1 2),
      ([0x2E12], .umuluRR 1 2),
      ([0x2F12], .bswapRR 1 2)] : List (List Word × Instr)).all
      (fun p => codes p.1 p.2) = true := by decide

/-- Class 3 (R82, R87, R218): 0x3odi. -/
theorem test_decode_class3 :
    ([([0x301C], .movRI 1 12),
      ([0x311C], .addRI 1 12),
      ([0x321C], .adcRI 1 12),
      ([0x331C], .subRI 1 12),
      ([0x341C], .sbbRI 1 12),
      ([0x351C], .andRI 1 12),
      ([0x361C], .orRI 1 12),
      ([0x371C], .xorRI 1 12),
      ([0x381C], .mulRI 1 12),
      ([0x391C], .muluRI 1 12),
      ([0x3A1C], .reservedClass3Op10 1 12),
      ([0x3B1C], .reservedClass3Op11 1 12),
      ([0x3C1C], .cmpRI 1 12),
      ([0x3D1C], .testRI 1 12),
      ([0x3E1C], .umuluRI 1 12),
      ([0x3F1C], .reservedClass3Op15 1 12)] : List (List Word × Instr)).all
      (fun p => codes p.1 p.2) = true := by decide

/-- Class 4 (R82, R88): 0x4cri. -/
theorem test_decode_class4 :
    ([([0x4036], .bz 3 6),
      ([0x4136], .bnz 3 6),
      ([0x4236], .bs 3 6),
      ([0x4336], .bns 3 6),
      ([0x4436], .bc 3 6),
      ([0x4536], .bnc 3 6),
      ([0x4636], .bv 3 6),
      ([0x4736], .bnv 3 6),
      ([0x4836], .blt 3 6),
      ([0x4936], .ble 3 6),
      ([0x4A36], .bgt 3 6),
      ([0x4B36], .bge 3 6),
      ([0x4C36], .bleu 3 6),
      ([0x4D36], .bgtu 3 6),
      ([0x4E36], .ba 3 6),
      ([0x4F36], .bl 3 6)] : List (List Word × Instr)).all
      (fun p => codes p.1 p.2) = true := by decide

/-- Class 5 (R82, R88, R248): 0x5cds. The row MOV.cc is the same sixteen words. -/
theorem test_decode_class5 :
    ([([0x5012], .movZ 1 2),
      ([0x5112], .movNz 1 2),
      ([0x5212], .movS 1 2),
      ([0x5312], .movNs 1 2),
      ([0x5412], .movC 1 2),
      ([0x5512], .movNc 1 2),
      ([0x5612], .movV 1 2),
      ([0x5712], .movNv 1 2),
      ([0x5812], .movLt 1 2),
      ([0x5912], .movLe 1 2),
      ([0x5A12], .movGt 1 2),
      ([0x5B12], .movGe 1 2),
      ([0x5C12], .movLeu 1 2),
      ([0x5D12], .movGtu 1 2),
      ([0x5E12], .movA 1 2),
      ([0x5F12], .movL 1 2)] : List (List Word × Instr)).all
      (fun p => codes p.1 p.2) = true := by decide

theorem test_encode_class5_any_condition :
    encode (.movCc .lt 1 2) = [0x5812] ∧ decodeWords [0x5812] = some (Instr.movCc .lt 1 2).canonical := by decide

/-- Class 6 (R260, R261): the word alone and the pair 0x100p, with the source's example "add x127, r3" (S11). -/
theorem test_decode_class6 :
    ([([0x67F3], .class6Word .toRx 127 3),
      ([0x6903], .class6Word .toRl 16 3),
      ([0x1000, 0x67F3], .movX .toRx 127 3),
      ([0x1001, 0x67F3], .addX .toRx 127 3),
      ([0x1002, 0x67F3], .adcX .toRx 127 3),
      ([0x1003, 0x67F3], .subX .toRx 127 3),
      ([0x1004, 0x67F3], .sbbX .toRx 127 3),
      ([0x1005, 0x67F3], .andX .toRx 127 3),
      ([0x1006, 0x67F3], .orX .toRx 127 3),
      ([0x1007, 0x67F3], .xorX .toRx 127 3),
      ([0x1008, 0x67F3], .mulX .toRx 127 3),
      ([0x1009, 0x67F3], .muluX .toRx 127 3),
      ([0x100A, 0x67F3], .rrnX .toRx 127 3),
      ([0x100B, 0x67F3], .rlnX .toRx 127 3),
      ([0x100C, 0x67F3], .cmpX .toRx 127 3),
      ([0x100D, 0x67F3], .testX .toRx 127 3),
      ([0x100E, 0x67F3], .umuluX .toRx 127 3),
      ([0x100F, 0x67F3], .bswapX .toRx 127 3)] : List (List Word × Instr)).all
      (fun p => codes p.1 p.2) = true := by decide

/-- Class 7 (R89, R282 to R287): 0x7irF. -/
theorem test_decode_class7 :
    ([([0x7210], .uld 2 1),
      ([0x7211], .uldb 2 1),
      ([0x7212], .uldbsx 2 1),
      ([0x7214], .ust 2 1),
      ([0x7215], .reservedClass7Flg5 2 1),
      ([0x7216], .ustb 2 1)] : List (List Word × Instr)).all
      (fun p => codes p.1 p.2) = true := by decide

/-- Class 9 (R265, R266): the word alone and the pair 0x10cp 0x9dab (S14). -/
theorem test_decode_class9 :
    ([([0x9123], .class9Word 1 2 3),
      ([0x10E0, 0x9123], .movT .a 1 2 3),
      ([0x10E1, 0x9123], .addT .a 1 2 3),
      ([0x10E2, 0x9123], .adcT .a 1 2 3),
      ([0x10E3, 0x9123], .subT .a 1 2 3),
      ([0x10E4, 0x9123], .sbbT .a 1 2 3),
      ([0x10E5, 0x9123], .andT .a 1 2 3),
      ([0x10E6, 0x9123], .orT .a 1 2 3),
      ([0x10E7, 0x9123], .xorT .a 1 2 3),
      ([0x10E8, 0x9123], .mulT .a 1 2 3),
      ([0x10E9, 0x9123], .muluT .a 1 2 3),
      ([0x10EA, 0x9123], .rrnT .a 1 2 3),
      ([0x10EB, 0x9123], .rlnT .a 1 2 3),
      ([0x10EC, 0x9123], .cmpT .a 1 2 3),
      ([0x10ED, 0x9123], .testT .a 1 2 3),
      ([0x10EE, 0x9123], .umuluT .a 1 2 3),
      ([0x10EF, 0x9123], .bswapT .a 1 2 3)] : List (List Word × Instr)).all
      (fun p => codes p.1 p.2) = true := by decide

/-- Classes 8, A to F (R82): 0xkirI. -/
theorem test_decode_memory_and_ports :
    ([([0x8215], .ldbsx 2 1 5),
      ([0xA215], .ldb 2 1 5),
      ([0xB215], .stb 2 1 5),
      ([0xC21E], .ld 2 1 14),
      ([0xD21E], .st 2 1 14),
      ([0xE015], .inPort 0 1 5),
      ([0xF21F], .outPort 2 1 15)] : List (List Word × Instr)).all
      (fun p => codes p.1 p.2) = true := by decide

/-- Ignored bits (R93): they change nothing, in a word or in a prefix of class 6. -/
theorem test_decode_ignores_x_bits :
    [0x02F5, 0x03F5, 0x047F, 0x06FE, 0x06FF, 0x07FF, 0x7213, 0x7218, 0x721F, 0x721D].map decodeWord =
      [.stix 5, .rsix 5, .cc, .cli, .sti, .sleep, .uldbsx 2 1, .uld 2 1, .ustb 2 1, .reservedClass7Flg5 2 1] ∧
    decodeWords [0x1FF1, 0x67F3] = some (.addX .toRx 127 3) ∧ decodeWords [0x1FE3, 0x9123] = some (.subT .a 1 2 3) ∧
    decodeWords [0x2012, 0x67F3] = none ∧ decodeWords [0x1001, 0x2012] = none := by decide

/-- Bytes (R51): the first byte is bits 7:0, or 15:8 with ENDIAN big; one byte is no instruction. -/
theorem test_decode_bytes :
    decode .little [0x14, 0x30, 0xAA] = .ok (.movRI 1 4, [0xAA]) ∧ decode .big [0x30, 0x14] = .ok (.movRI 1 4, []) ∧
    decode .little [0x14] = .error .truncated ∧ decode .little [] = .error .truncated ∧
    decodeTableWord 16 0x3014 = some (.movRI 1 4) ∧ decodeTableWord 32 0x67F31001 = some (.addX .toRx 127 3) := by
  decide

/-! ### ALU operations (95_test_vectors.md section 2.3) -/

theorem test_alu_mov :
    (aluLine .mov 0xDEAD 0x1234 (fl 1 1 1 1) (some 0x1234) (fl 1 1 1 1)) = true := by decide

theorem test_alu_add :
    (aluLine .add 0x0000 0x0000 (fl 0 0 0 0) (some 0x0000) (fl 1 0 0 0) &&
    aluLine .add 0xFFFF 0x0001 (fl 0 0 0 0) (some 0x0000) (fl 1 1 0 0) &&
    aluLine .add 0x7FFF 0x0001 (fl 0 0 0 0) (some 0x8000) (fl 0 0 1 1) &&
    aluLine .add 0x8000 0x0001 (fl 0 0 0 0) (some 0x8001) (fl 0 0 1 0) &&
    aluLine .add 0x8000 0x8000 (fl 0 0 0 0) (some 0x0000) (fl 1 1 0 1) &&
    aluLine .add 0x0005 0x0007 (fl 0 0 0 0) (some 0x000C) (fl 0 0 0 0) &&
    aluLine .add 0x8000 0xFFFF (fl 0 0 0 0) (some 0x7FFF) (fl 0 1 0 1) &&
    aluLine .add 0x7FFF 0xFFFF (fl 0 0 0 0) (some 0x7FFE) (fl 0 1 0 0) &&
    aluLine .add 0x1234 0x1234 (fl 0 0 0 0) (some 0x2468) (fl 0 0 0 0)) = true := by decide

theorem test_alu_adc :
    (aluLine .adc 0xFFFF 0x0000 (fl 0 0 0 0) (some 0xFFFF) (fl 0 0 1 0) &&
    aluLine .adc 0xFFFF 0x0000 (fl 0 1 0 0) (some 0x0000) (fl 1 1 0 0) &&
    aluLine .adc 0x7FFF 0x0000 (fl 0 1 0 0) (some 0x8000) (fl 0 0 1 1) &&
    aluLine .adc 0xFFFF 0xFFFF (fl 0 0 0 0) (some 0xFFFE) (fl 0 1 1 0) &&
    aluLine .adc 0xFFFF 0xFFFF (fl 0 1 0 0) (some 0xFFFF) (fl 0 1 1 0) &&
    aluLine .adc 0x0000 0x0000 (fl 0 1 0 0) (some 0x0001) (fl 0 0 0 0) &&
    aluLine .adc 0x1234 0x0FFF (fl 0 1 0 0) (some 0x2234) (fl 0 0 0 0)) = true := by decide

theorem test_alu_sub :
    (aluLine .sub 0x0000 0x0000 (fl 0 0 0 0) (some 0x0000) (fl 1 0 0 0) &&
    aluLine .sub 0xFFFF 0x0001 (fl 0 0 0 0) (some 0xFFFE) (fl 0 0 1 0) &&
    aluLine .sub 0x8000 0x0001 (fl 0 0 0 0) (some 0x7FFF) (fl 0 0 0 1) &&
    aluLine .sub 0x8000 0x8000 (fl 0 0 0 0) (some 0x0000) (fl 1 0 0 0) &&
    aluLine .sub 0x0000 0x0001 (fl 0 0 0 0) (some 0xFFFF) (fl 0 1 1 0) &&
    aluLine .sub 0x0005 0x0007 (fl 0 0 0 0) (some 0xFFFE) (fl 0 1 1 0) &&
    aluLine .sub 0x0007 0x0005 (fl 0 0 0 0) (some 0x0002) (fl 0 0 0 0) &&
    aluLine .sub 0x8000 0xFFFF (fl 0 0 0 0) (some 0x8001) (fl 0 1 1 0) &&
    aluLine .sub 0x7FFF 0xFFFF (fl 0 0 0 0) (some 0x8000) (fl 0 1 1 1)) = true := by decide

theorem test_alu_sbb :
    (aluLine .sbb 0x0000 0x0000 (fl 0 1 0 0) (some 0xFFFF) (fl 0 1 1 0) &&
    aluLine .sbb 0x8000 0x0000 (fl 0 1 0 0) (some 0x7FFF) (fl 0 0 0 1) &&
    aluLine .sbb 0x0005 0x0005 (fl 0 0 0 0) (some 0x0000) (fl 1 0 0 0) &&
    aluLine .sbb 0x0005 0x0005 (fl 0 1 0 0) (some 0xFFFF) (fl 0 1 1 0) &&
    aluLine .sbb 0x0005 0x0004 (fl 0 1 0 0) (some 0x0000) (fl 1 0 0 0) &&
    aluLine .sbb 0x0000 0xFFFF (fl 0 0 0 0) (some 0x0001) (fl 0 1 0 0) &&
    aluLine .sbb 0x0000 0xFFFF (fl 0 1 0 0) (some 0x0000) (fl 1 1 0 0) &&
    aluLine .sbb 0x8000 0x7FFF (fl 0 0 0 0) (some 0x0001) (fl 0 0 0 1) &&
    aluLine .sbb 0x8000 0x7FFF (fl 0 1 0 0) (some 0x0000) (fl 1 0 0 1)) = true := by decide

theorem test_alu_and :
    (aluLine .and 0xF0F0 0x0FF0 (fl 0 1 0 1) (some 0x00F0) (fl 0 1 0 1) &&
    aluLine .and 0xAAAA 0x5555 (fl 0 1 0 1) (some 0x0000) (fl 1 1 0 1) &&
    aluLine .and 0x8001 0x8001 (fl 0 1 0 1) (some 0x8001) (fl 0 1 1 1)) = true := by decide

theorem test_alu_or :
    (aluLine .or 0xF0F0 0x0FF0 (fl 0 1 0 1) (some 0xFFF0) (fl 0 1 1 1) &&
    aluLine .or 0x0000 0x0000 (fl 0 1 0 1) (some 0x0000) (fl 1 1 0 1)) = true := by decide

theorem test_alu_xor :
    (aluLine .xor 0xF0F0 0x0FF0 (fl 0 1 0 1) (some 0xFF00) (fl 0 1 1 1) &&
    aluLine .xor 0x8001 0x8001 (fl 0 1 0 1) (some 0x0000) (fl 1 1 0 1)) = true := by decide

theorem test_alu_mul :
    (aluLine .mul 0x0000 0x1234 (fl 0 1 0 1) (some 0x0000) (fl 1 1 0 1) &&
    aluLine .mul 0xFFFF 0xFFFF (fl 0 1 0 1) (some 0x0001) (fl 0 1 0 1) &&
    aluLine .mul 0x8000 0x8000 (fl 0 1 0 1) (some 0x0000) (fl 1 1 0 1) &&
    aluLine .mul 0x8000 0x7FFF (fl 0 1 0 1) (some 0x8000) (fl 0 1 1 1) &&
    aluLine .mul 0x0100 0x0100 (fl 0 1 0 1) (some 0x0000) (fl 1 1 0 1) &&
    aluLine .mul 0x1234 0x5678 (fl 0 1 0 1) (some 0x0060) (fl 0 1 0 1)) = true := by decide

theorem test_alu_mulu :
    (aluLine .mulu 0x0000 0x1234 (fl 0 1 0 1) (some 0x0000) (fl 1 1 0 1) &&
    aluLine .mulu 0xFFFF 0xFFFF (fl 0 1 0 1) (some 0x0000) (fl 1 1 0 1) &&
    aluLine .mulu 0x8000 0x8000 (fl 0 1 0 1) (some 0x4000) (fl 0 1 0 1) &&
    aluLine .mulu 0x8000 0x7FFF (fl 0 1 0 1) (some 0xC000) (fl 0 1 1 1) &&
    aluLine .mulu 0xFFFF 0x0001 (fl 0 1 0 1) (some 0xFFFF) (fl 0 1 1 1) &&
    aluLine .mulu 0x4000 0x0004 (fl 0 1 0 1) (some 0x0001) (fl 0 1 0 1) &&
    aluLine .mulu 0x1234 0x5678 (fl 0 1 0 1) (some 0x0626) (fl 0 1 0 1) &&
    aluLine .mulu 0x8000 0x0002 (fl 0 1 0 1) (some 0xFFFF) (fl 0 1 1 1)) = true := by decide

theorem test_alu_rrn :
    (aluLine .rrn 0xDEAD 0x1234 (fl 1 1 1 1) (some 0x4123) (fl 1 1 1 1) &&
    aluLine .rrn 0xDEAD 0x000F (fl 1 1 1 1) (some 0xF000) (fl 1 1 1 1) &&
    aluLine .rrn 0xDEAD 0x8001 (fl 1 1 1 1) (some 0x1800) (fl 1 1 1 1)) = true := by decide

theorem test_alu_rln :
    (aluLine .rln 0xDEAD 0x1234 (fl 1 1 1 1) (some 0x2341) (fl 1 1 1 1) &&
    aluLine .rln 0xDEAD 0x000F (fl 1 1 1 1) (some 0x00F0) (fl 1 1 1 1) &&
    aluLine .rln 0xDEAD 0x8001 (fl 1 1 1 1) (some 0x0018) (fl 1 1 1 1)) = true := by decide

theorem test_alu_cmp :
    (aluLine .cmp 0x0000 0x0000 (fl 0 0 0 0) none (fl 1 0 0 0) &&
    aluLine .cmp 0x8000 0x0001 (fl 0 0 0 0) none (fl 0 0 0 1) &&
    aluLine .cmp 0x0005 0x0007 (fl 0 0 0 0) none (fl 0 1 1 0) &&
    aluLine .cmp 0x0007 0x0005 (fl 0 0 0 0) none (fl 0 0 0 0) &&
    aluLine .cmp 0x8000 0xFFFF (fl 0 0 0 0) none (fl 0 1 1 0) &&
    aluLine .cmp 0x7FFF 0xFFFF (fl 0 0 0 0) none (fl 0 1 1 1) &&
    aluLine .cmp 0x1234 0x1234 (fl 0 0 0 0) none (fl 1 0 0 0)) = true := by decide

theorem test_alu_test :
    (aluLine .test 0xF0F0 0x0FF0 (fl 0 1 0 1) none (fl 0 1 0 1) &&
    aluLine .test 0xAAAA 0x5555 (fl 0 1 0 1) none (fl 1 1 0 1) &&
    aluLine .test 0x8001 0x8001 (fl 0 1 0 1) none (fl 0 1 1 1)) = true := by decide

theorem test_alu_umulu :
    (aluLine .umulu 0x0000 0x1234 (fl 0 1 0 1) (some 0x0000) (fl 1 1 0 1) &&
    aluLine .umulu 0xFFFF 0xFFFF (fl 0 1 0 1) (some 0xFFFE) (fl 0 1 1 1) &&
    aluLine .umulu 0x8000 0x8000 (fl 0 1 0 1) (some 0x4000) (fl 0 1 0 1) &&
    aluLine .umulu 0x8000 0x7FFF (fl 0 1 0 1) (some 0x3FFF) (fl 0 1 0 1) &&
    aluLine .umulu 0xFFFF 0x0001 (fl 0 1 0 1) (some 0x0000) (fl 1 1 0 1) &&
    aluLine .umulu 0x1234 0x5678 (fl 0 1 0 1) (some 0x0626) (fl 0 1 0 1) &&
    aluLine .umulu 0x8000 0x0002 (fl 0 1 0 1) (some 0x0001) (fl 0 1 0 1)) = true := by decide

theorem test_alu_bswap :
    (aluLine .bswap 0xDEAD 0x1234 (fl 1 1 1 1) (some 0x3412) (fl 1 1 1 1) &&
    aluLine .bswap 0xDEAD 0x8001 (fl 1 1 1 1) (some 0x0180) (fl 1 1 1 1)) = true := by decide

/-! ### Shifts and rotates (95_test_vectors.md section 2.1) -/

theorem test_shift_asr :
    (shiftLine 0x0403 0x8001 (fl 0 0 0 1) 0xC000 (fl 0 1 1 1) &&
    shiftLine 0x0403 0x0001 (fl 0 0 0 1) 0x0000 (fl 1 1 0 1) &&
    shiftLine 0x0403 0x8000 (fl 0 0 0 1) 0xC000 (fl 0 0 1 1) &&
    shiftLine 0x0403 0x4002 (fl 0 0 0 1) 0x2001 (fl 0 0 0 1) &&
    shiftLine 0x0403 0xFFFF (fl 0 0 0 1) 0xFFFF (fl 0 1 1 1)) = true := by decide

theorem test_shift_lsr :
    (shiftLine 0x0413 0x8001 (fl 0 0 0 1) 0x4000 (fl 0 1 0 1) &&
    shiftLine 0x0413 0x0001 (fl 0 0 0 1) 0x0000 (fl 1 1 0 1) &&
    shiftLine 0x0413 0xFFFF (fl 0 0 0 1) 0x7FFF (fl 0 1 0 1)) = true := by decide

theorem test_shift_lsl :
    (shiftLine 0x0423 0x8001 (fl 0 0 0 1) 0x0002 (fl 0 1 0 1) &&
    shiftLine 0x0423 0x8000 (fl 0 0 0 1) 0x0000 (fl 1 1 0 1) &&
    shiftLine 0x0423 0x4002 (fl 0 0 0 1) 0x8004 (fl 0 0 1 1)) = true := by decide

theorem test_shift_rolc :
    (shiftLine 0x0433 0x8001 (fl 0 0 0 1) 0x0002 (fl 0 1 0 1) &&
    shiftLine 0x0433 0x8001 (fl 0 1 0 1) 0x0003 (fl 0 1 0 1) &&
    shiftLine 0x0433 0x8000 (fl 0 0 0 1) 0x0000 (fl 1 1 0 1) &&
    shiftLine 0x0433 0x0000 (fl 0 1 0 1) 0x0001 (fl 0 0 0 1) &&
    shiftLine 0x0433 0xFFFF (fl 0 0 0 1) 0xFFFE (fl 0 1 1 1)) = true := by decide

theorem test_shift_rorc :
    (shiftLine 0x0443 0x8001 (fl 0 0 0 1) 0x4000 (fl 0 1 0 1) &&
    shiftLine 0x0443 0x8001 (fl 0 1 0 1) 0xC000 (fl 0 1 1 1) &&
    shiftLine 0x0443 0x0001 (fl 0 0 0 1) 0x0000 (fl 1 1 0 1) &&
    shiftLine 0x0443 0x0000 (fl 0 1 0 1) 0x8000 (fl 0 0 1 1) &&
    shiftLine 0x0443 0x4002 (fl 0 1 0 1) 0xA001 (fl 0 0 1 1)) = true := by decide

theorem test_shift_rol :
    (shiftLine 0x0453 0x8001 (fl 0 0 0 1) 0x0003 (fl 0 1 0 1) &&
    shiftLine 0x0453 0x8000 (fl 0 0 0 1) 0x0001 (fl 0 1 0 1) &&
    shiftLine 0x0453 0x4002 (fl 0 0 0 1) 0x8004 (fl 0 0 1 1) &&
    shiftLine 0x0453 0x0000 (fl 0 0 0 1) 0x0000 (fl 1 0 0 1)) = true := by decide

theorem test_shift_ror :
    (shiftLine 0x0463 0x8001 (fl 0 0 0 1) 0xC000 (fl 0 1 1 1) &&
    shiftLine 0x0463 0x0001 (fl 0 0 0 1) 0x8000 (fl 0 1 1 1) &&
    shiftLine 0x0463 0x8000 (fl 0 0 0 1) 0x4000 (fl 0 0 0 1) &&
    shiftLine 0x0463 0xFFFF (fl 0 0 0 1) 0xFFFF (fl 0 1 1 1)) = true := by decide

/-! ### Conditions (95_test_vectors.md section 2.4) -/

/-- The table, a row a line; bit 15 of the number is condition 0. -/
theorem test_conditions :
    ([(fl 0 0 0 0, 0b0101010100110111),
      (fl 0 0 0 1, 0b0101011011000111),
      (fl 0 0 1 0, 0b0110010111000111),
      (fl 0 0 1 1, 0b0110011000110111),
      (fl 0 1 0 0, 0b0101100100111011),
      (fl 0 1 0 1, 0b0101101011001011),
      (fl 0 1 1 0, 0b0110100111001011),
      (fl 0 1 1 1, 0b0110101000111011),
      (fl 1 0 0 0, 0b1001010101011011),
      (fl 1 0 0 1, 0b1001011011001011),
      (fl 1 0 1 0, 0b1010010111001011),
      (fl 1 0 1 1, 0b1010011001011011),
      (fl 1 1 0 0, 0b1001100101011011),
      (fl 1 1 0 1, 0b1001101011001011),
      (fl 1 1 1 0, 0b1010100111001011),
      (fl 1 1 1 1, 0b1010101001011011)] : List (Flags × Word)).all
      (fun p => (List.range 16).all fun n => (Cond.ofBits (BitVec.ofNat 4 n)).holds p.1 == p.2.getLsbD (15 - n)) = true := by
  decide

/-! ### Whole instructions -/

/-- Section 2.1: NOP, RET, IRET, STIX, RSIX, CLI, STI, SLEEP and the flag operations. -/
theorem test_class0 :
    (gives (execWords [0x0000] ({ start (fl 1 0 1 0) [] with immhi := 0x123 })) (fun t => t.pc == 0x0012 && t.immhi == 0 && t.flags == fl 1 0 1 0 && t.readReg 1 == 0) &&
    gives (execWords [0x0100] (start (fl 0 0 0 0) [(15, 0x0124)])) (fun t => t.pc == 0x0124 && t.readReg 15 == 0x0124) &&
    gives (execWords [0x0100] (start (fl 0 0 0 0) [(15, 0x0125)])) (fun t => t.pc == 0x0125) &&
    gives (execWords [0x0101] ({ start (fl 0 0 0 0) [(14, 0x0042)] with sImmhi := 0x123, sFlags := 0b1010 })) (fun t => t.pc == 0x0042 && t.immhi == 0x123 && t.flags == fl 1 0 1 0 && t.ie) &&
    gives (execWords [0x0205] ({ start (fl 0 0 0 0) [] with sImmhi := 0xABC, sFlags := 0b0101 })) (fun t => t.readReg 5 == 0xABC5) &&
    gives (execWords [0x0305] (start (fl 1 0 1 0) [(5, 0xABC5)])) (fun t => t.sImmhi == 0xABC && t.sFlags == 0b0101 && t.flags == fl 1 0 1 0) &&
    gives (execWords [0x0600] ({ start (fl 0 0 0 0) [] with ie := true })) (fun t => !t.ie) &&
    gives (execWords [0x0601] (start (fl 0 0 0 0) [])) (fun t => t.ie) &&
    gives (execWords [0x0700] ({ start (fl 0 0 0 0) [] with pc := 0x0030, ie := true })) (fun t => t.sleeping && t.pc == 0x0032 && t.ie)) = true := by decide

/-- Section 2.1: the flag operations. -/
theorem test_flag_operations :
    (gives (execWords [0x0470] (start (fl 1 1 1 1) [])) (fun t => t.flags == fl 1 0 1 1) &&
    gives (execWords [0x0480] (start (fl 0 0 0 0) [])) (fun t => t.flags == fl 0 1 0 0) &&
    gives (execWords [0x0490] (start (fl 1 1 1 1) [])) (fun t => t.flags == fl 0 1 1 1) &&
    gives (execWords [0x04A0] (start (fl 0 0 0 0) [])) (fun t => t.flags == fl 1 0 0 0) &&
    gives (execWords [0x04B0] (start (fl 1 1 1 1) [])) (fun t => t.flags == fl 1 1 0 1) &&
    gives (execWords [0x04C0] (start (fl 0 0 0 0) [])) (fun t => t.flags == fl 0 0 1 0) &&
    gives (execWords [0x04D2] (start (fl 1 0 0 1) [(2, 0xFFFF)])) (fun t => t.readReg 2 == 0x0009 && t.flags == fl 1 0 0 1) &&
    gives (execWords [0x04D2] (start (fl 0 1 1 0) [])) (fun t => t.readReg 2 == 0x0006) &&
    gives (execWords [0x04E2] (start (fl 1 1 1 1) [(2, 0xFFF6)])) (fun t => t.flags == fl 0 1 1 0) &&
    gives (execWords [0x04E2] (start (fl 1 1 1 1) [(2, 0x1238)])) (fun t => t.flags == fl 1 0 0 0) &&
    gives (execWords [0x04E0] (start (fl 1 1 1 1) [])) (fun t => t.flags == fl 0 0 0 0)) = true := by decide

/-- Section 2.2: the immediate register and the 16-bit immediate. -/
theorem test_prefix :
    (gives (execWords [0x1123, 0x3014] (start (fl 0 0 0 0) [(1, 0x0010), (2, 0x0055)])) (fun t => t.readReg 1 == 0x1234 && t.immhi == 0 && t.pc == 0x0014) &&
    gives (execWords [0x1111, 0x1222, 0x3013] (start (fl 0 0 0 0) [(1, 0x0010), (2, 0x0055)])) (fun t => t.readReg 1 == 0x2223) &&
    gives (execWords [0x1123, 0x0000, 0x3114] (start (fl 0 0 0 0) [(1, 0x0010), (2, 0x0055)])) (fun t => t.readReg 1 == 0x0014) &&
    gives (execWords [0x1FFF, 0x311F] (start (fl 0 0 0 0) [(1, 0x0010), (2, 0x0055)])) (fun t => t.readReg 1 == 0x000F && t.flags == fl 0 1 0 0) &&
    gives (execWords [0x1123, 0x2012] (start (fl 0 0 0 0) [(1, 0x0010), (2, 0x0055)])) (fun t => t.readReg 1 == 0x0055 && t.immhi == 0) &&
    gives (execWords [0x301F] (start (fl 0 0 0 0) [(1, 0x0010), (2, 0x0055)])) (fun t => t.readReg 1 == 0x000F)) = true := by decide

/-- Section 2.3: whole instructions of classes 2 and 3. -/
theorem test_class2_and_class3 :
    (gives (execWords [0x2112] (start (fl 0 1 0 1) [(1, 0x7FFF), (2, 1)])) (fun t => t.readReg 1 == 0x8000 && t.flags == fl 0 0 1 1) &&
    gives (execWords [0x2011] (start (fl 0 1 0 1) [(1, 0xBEEF)])) (fun t => t.readReg 1 == 0xBEEF && t.flags == fl 0 1 0 1) &&
    gives (execWords [0x2311] (start (fl 0 1 0 1) [(1, 0xBEEF)])) (fun t => t.readReg 1 == 0 && t.flags == fl 1 0 0 0) &&
    gives (execWords [0x2711] (start (fl 0 1 0 1) [(1, 0xBEEF)])) (fun t => t.readReg 1 == 0 && t.flags == fl 1 1 0 1) &&
    gives (execWords [0x2F12] (start (fl 0 1 0 1) [(2, 0x1234)])) (fun t => t.readReg 1 == 0x3412 && t.flags == fl 0 1 0 1) &&
    gives (execWords [0x2C00] (start (fl 0 1 0 1) [])) (fun t => t.flags == fl 1 0 0 0) &&
    gives (execWords [0x3111] (start (fl 0 1 0 1) [(1, 0xFFFF)])) (fun t => t.readReg 1 == 0 && t.flags == fl 1 1 0 0) &&
    gives (execWords [0x3311] (start (fl 0 1 0 1) [])) (fun t => t.readReg 1 == 0xFFFF && t.flags == fl 0 1 1 0) &&
    gives (execWords [0x1123, 0x3C14] (start (fl 0 1 0 1) [(1, 0x1234)])) (fun t => t.readReg 1 == 0x1234 && t.flags == fl 1 0 0 0) &&
    gives (execWords [0x3D18] (start (fl 0 1 0 1) [(1, 0x00F7)])) (fun t => t.readReg 1 == 0x00F7 && t.flags == fl 1 1 0 1) &&
    gives (execWords [0x10FF, 0x3510] (start (fl 0 1 0 1) [(1, 0xABCD)])) (fun t => t.readReg 1 == 0x0BC0 && t.flags == fl 0 1 0 1) &&
    gives (execWords [0x381A] (start (fl 0 1 0 1) [(1, 0x1999)])) (fun t => t.readReg 1 == 0xFFFA && t.flags == fl 0 1 1 1) &&
    gives (execWords [0x1800, 0x3E10] (start (fl 0 1 0 1) [(1, 7)])) (fun t => t.readReg 1 == 3 && t.flags == fl 0 1 0 1) &&
    gives (execWords [0x1FFF, 0x391F] (start (fl 0 1 0 1) [(1, 7)])) (fun t => t.readReg 1 == 0xFFFF && t.flags == fl 0 1 1 1) &&
    gives (execWords [0x3005] (start (fl 0 1 0 1) [])) (fun t => t.readReg 0 == 0 && t.flags == fl 0 1 0 1) &&
    gives (execWords [0x3100] (start (fl 0 1 0 1) [])) (fun t => t.readReg 0 == 0 && t.flags == fl 1 0 0 0)) = true := by decide

/-- Section 2.1 and 2.3: the reserved encodings, and the words on either side of them (R94). -/
theorem test_reserved :
    [0x0001, 0x00FF, 0x0102, 0x01FF, 0x04F0, 0x04FF, 0x0500, 0x05FF, 0x0800, 0x0FFF, 0x3A12, 0x3B12, 0x3F12, 0x7215, 0x721D].all
      (fun w => faults (execWords [w] State.reset) .reservedEncoding) = true ∧
    [0x0000, 0x0100, 0x0101, 0x0200, 0x04EF, 0x0600, 0x07FF, 0x1000, 0x39FF, 0x3C00, 0x3EFF, 0x7214, 0x7216].all
      (fun w => gives (execWords [w] State.reset) fun _ => true) = true := by decide

/-- Section 2.5: branches. -/
theorem test_branches :
    (gives (execWords [0x1004, 0x4000] (start (fl 1 0 0 0) [])) (fun t => t.pc == 0x0040) &&
    gives (execWords [0x1004, 0x4000] (start (fl 0 0 0 0) [])) (fun t => t.pc == 0x0014 && t.immhi == 0) &&
    gives (execWords [0x4108] (start (fl 0 0 0 0) [])) (fun t => t.pc == 0x0008) &&
    gives (execWords [0x4E30] (start (fl 0 0 0 0) [(3, 0x1234)])) (fun t => t.pc == 0x1234) &&
    gives (execWords [0x4E36] (start (fl 0 0 0 0) [(3, 0x1234)])) (fun t => t.pc == 0x123A) &&
    gives (execWords [0x1FFF, 0x4E0E] (start (fl 0 0 0 0) [])) (fun t => t.pc == 0xFFFE) &&
    gives (execWords [0x1010, 0x4F00] (start (fl 0 0 0 0) [])) (fun t => t.pc == 0x0100 && t.readReg 15 == 0x0014) &&
    gives (execWords [0x4FF0] (start (fl 0 0 0 0) [(15, 0x0300)])) (fun t => t.pc == 0x0300 && t.readReg 15 == 0x0012) &&
    gives (execWords [0x4F32] (start (fl 0 0 0 0) [(3, 0xFFFF)])) (fun t => t.pc == 0x0001 && t.readReg 15 == 0x0012) &&
    gives (execWords [0x4A30] (start (fl 0 0 1 1) [(3, 0x0200)])) (fun t => t.pc == 0x0200) &&
    gives (execWords [0x4930] (start (fl 0 0 1 1) [(3, 0x0200)])) (fun t => t.pc == 0x0012) &&
    gives (execWords [0x4C30] (start (fl 1 0 0 0) [(3, 0x0200)])) (fun t => t.pc == 0x0200) &&
    gives (execWords [0x4D30] (start (fl 0 0 0 0) [(3, 0x0200)])) (fun t => t.pc == 0x0200) &&
    gives (execWords [0x1ABC, 0x4100] (start (fl 1 0 0 0) [])) (fun t => t.pc == 0x0014 && t.immhi == 0)) = true := by decide

/-- Section 2.5: conditional moves. -/
theorem test_conditional_moves :
    (gives (execWords [0x5012] (start (fl 1 0 0 0) [(2, 0x00AA)])) (fun t => t.readReg 1 == 0x00AA) &&
    gives (execWords [0x5012] (start (fl 0 0 0 0) [(1, 0x0011), (2, 0x00AA)])) (fun t => t.readReg 1 == 0x0011 && t.pc == 0x0012) &&
    gives (execWords [0x5F12] (start (fl 0 0 0 0) [(2, 0x00AA), (15, 0x7777)])) (fun t => t.readReg 1 == 0x00AA && t.readReg 15 == 0x7777) &&
    gives (execWords [0x2C12, 0x5812] (start (fl 0 0 0 0) [(1, 0xFFFB), (2, 7)])) (fun t => t.readReg 1 == 7 && t.flags == fl 0 0 1 0)) = true := by decide

/-- Section 2.6: class 6. -/
theorem test_class6 :
    (gives (execWords [0x1001, 0x67F3] (start (fl 0 0 0 0) [(127, 0x1000), (3, 0x0234)])) (fun t => t.readReg 127 == 0x1234 && t.flags == fl 0 0 0 0 && t.pc == 0x0014) &&
    gives (execWords [0x1001, 0x6FF3] (start (fl 0 0 0 0) [(127, 0x1000), (3, 0x0234)])) (fun t => t.readReg 3 == 0x1234 && t.readReg 127 == 0x1000) &&
    gives (execWords [0x67F3] (start (fl 1 1 1 1) [(3, 0x0234)])) (fun t => t.readReg 127 == 0x0234 && t.flags == fl 1 1 1 1) &&
    gives (execWords [0x6903] (start (fl 0 0 0 0) [(16, 0xAAAA)])) (fun t => t.readReg 3 == 0xAAAA) &&
    gives (execWords [0x100C, 0x6642] (start (fl 0 0 0 0) [(100, 5), (2, 7)])) (fun t => t.readReg 100 == 5 && t.flags == fl 0 1 1 0) &&
    gives (execWords [0x1001, 0x6289] (start (fl 0 0 0 0) [(40, 0xFFFF), (9, 1)])) (fun t => t.readReg 40 == 0 && t.flags == fl 1 1 0 0) &&
    gives (execWords [0x100F, 0x6052] (start (fl 0 0 0 0) [(2, 0x1234)])) (fun t => t.readReg 5 == 0x3412) &&
    gives (execWords [0x1FF1, 0x67F3] (start (fl 0 0 0 0) [(127, 0x1000), (3, 0x0234)])) (fun t => t.readReg 127 == 0x1234)) = true := by decide

/-- Section 2.6: class 9. -/
theorem test_class9 :
    (gives (execWords [0x10E3, 0x9123] (start (fl 1 1 1 1) [(2, 10), (3, 3)])) (fun t => t.readReg 1 == 7 && t.flags == fl 0 0 0 0) &&
    gives (execWords [0x10E1, 0x9123] (start (fl 0 0 0 0) [(2, 0x7FFF), (3, 1)])) (fun t => t.readReg 1 == 0x8000 && t.flags == fl 0 0 1 1) &&
    gives (execWords [0x10EC, 0x9123] (start (fl 0 0 0 0) [(1, 9), (2, 3), (3, 10)])) (fun t => t.readReg 1 == 9 && t.flags == fl 0 1 1 0) &&
    gives (execWords [0x10EF, 0x9123] (start (fl 0 0 0 0) [(3, 0x1234)])) (fun t => t.readReg 1 == 0x3412) &&
    gives (execWords [0x10EE, 0x9123] (start (fl 0 0 0 0) [(2, 0xFFFF), (3, 0xFFFF)])) (fun t => t.readReg 1 == 0xFFFE && t.flags == fl 0 0 1 0) &&
    gives (execWords [0x1001, 0x9123] (start (fl 0 1 1 1) [(2, 10), (3, 3)])) (fun t => t.readReg 1 == 0 && t.flags == fl 0 1 1 1 && t.immhi == 0 && t.pc == 0x0014) &&
    gives (execWords [0x1001, 0x9123] (start (fl 1 0 0 0) [(2, 10), (3, 3)])) (fun t => t.readReg 1 == 13 && t.flags == fl 0 0 0 0) &&
    gives (execWords [0x1080, 0x9123] (start (fl 0 0 1 0) [(3, 0x5555)])) (fun t => t.readReg 1 == 0x5555 && t.flags == fl 0 0 1 0) &&
    gives (execWords [0x9123] (start (fl 1 0 0 0) [(3, 0x5555)])) (fun t => t.readReg 1 == 0x5555) &&
    gives (execWords [0x9123] (start (fl 0 0 0 0) [(3, 0x5555)])) (fun t => t.readReg 1 == 0) &&
    gives (execWords [0x10F7, 0x9111] (start (fl 0 0 0 0) [(1, 0xBEEF)])) (fun t => t.readReg 1 == 0 && t.flags == fl 1 0 0 0)) = true := by decide

/-- Section 2.7: loads. -/
theorem test_loads :
    (gives (execWords [0x8210] (startMem [(2, 0x0100)])) (fun t => t.readReg 1 == 0xFF80 && t.immhi == 0) &&
    gives (execWords [0x8211] (startMem [(2, 0x0100)])) (fun t => t.readReg 1 == 0x007F && t.immhi == 0) &&
    gives (execWords [0xA210] (startMem [(2, 0x0100)])) (fun t => t.readReg 1 == 0x0080 && t.immhi == 0) &&
    gives (execWords [0xA211] (startMem [(2, 0x0100)])) (fun t => t.readReg 1 == 0x007F && t.immhi == 0) &&
    gives (execWords [0xC210] (startMem [(2, 0x0100)])) (fun t => t.readReg 1 == 0x7F80 && t.immhi == 0) &&
    gives (execWords [0xC212] (startMem [(2, 0x0100)])) (fun t => t.readReg 1 == 0x1234 && t.immhi == 0) &&
    gives (execWords [0x1FFF, 0xC21E] (startMem [(2, 0x0100)])) (fun t => t.readReg 1 == 0xABCD && t.immhi == 0) &&
    gives (execWords [0x1010, 0xC012] (startMem [])) (fun t => t.readReg 1 == 0x1234 && t.immhi == 0) &&
    gives (execWords [0xC220] (startMem [(2, 0x0102)])) (fun t => t.readReg 2 == 0x1234 && t.immhi == 0) &&
    gives (execWords [0xA21F] (startMem [(2, 0xFFF0)])) (fun t => t.readReg 1 == 0x0022 && t.immhi == 0) &&
    gives (execWords [0xC212] (startMem [(2, 0xFFFC)])) (fun t => t.readReg 1 == 0x2211 && t.immhi == 0) &&
    gives (execWords [0x8212] (startMem [(2, 0xFFFE)])) (fun t => t.readReg 1 == 0x0077 && t.immhi == 0)) = true := by decide

/-- Section 2.7: stores. -/
theorem test_stores :
    (gives (execWords [0xB210] (startMem [(2, 0x0100), (1, 0x12AB)])) (fun t => t.mem.read 0x0100 == 0xAB && t.mem.read 0x0101 == 0x7F && t.mem.wf) &&
    gives (execWords [0xB211] (startMem [(2, 0x0100), (1, 0x12AB)])) (fun t => t.mem.read 0x0101 == 0xAB && t.mem.read 0x0100 == 0x80) &&
    gives (execWords [0xD212] (startMem [(2, 0x0100), (1, 0xBEEF)])) (fun t => t.mem.read 0x0102 == 0xEF && t.mem.read 0x0103 == 0xBE) &&
    gives (execWords [0x1020, 0xD010] (startMem [(1, 0xBEEF)])) (fun t => t.mem.read 0x0200 == 0xEF && t.mem.read 0x0201 == 0xBE && t.mem.wf) &&
    gives (execWords [0xD220] (startMem [(2, 0x0102)])) (fun t => t.mem.read 0x0102 == 0x02 && t.mem.read 0x0103 == 0x01) &&
    gives (execWords [0xD200] (startMem [(2, 0x0102)])) (fun t => t.mem.read 0x0102 == 0x00 && t.mem.read 0x0103 == 0x00 && t.mem.wf)) = true := by decide

/-- Section 2.7: a word access at an odd address. -/
theorem test_misaligned :
    (faults (execWords [0xC211] (startMem [(2, 0x0100)])) .misalignedAccess &&
     faults (execWords [0xD211] (startMem [(2, 0x0100)])) .misalignedAccess &&
     faults (step { State.reset with pc := 0x0125 }) .misalignedFetch) = true := by decide

/-- Section 2.7, class 7: a byte stored with USTB is read back by ULDB and ULDBSX at the same index, wherever UPPER_MAP puts it. -/
theorem test_upper_byte (t u : State) (h : exec (.ustb 2 1) (start (fl 0 0 0 0) [(2, 0x0101), (1, 0x1280)]) = .next t)
    (hu : exec (.uldbsx 2 3) t = .next u) : u.readReg 3 = 0xFF80 := by
  obtain rfl := Host.Outcome.next.inj h
  obtain rfl := Host.Outcome.next.inj hu
  have hr : Memory.read (Memory.write [] (upperLoc 0x0101) 0x80) (upperLoc 0x0101) = 0x80 := by
    simp [Memory.write, Memory.read, Memory.unlisted]
  show ((Memory.read (Memory.write [] (upperLoc 0x0101) 0x80) (upperLoc 0x0101)).signExtend 16 : Word) = 0xFF80
  rw [hr]
  decide

/-- Section 2.8: port input and output. -/
theorem test_ports :
    (gives (execWords [0xE015] ({ start (fl 0 0 0 0) [] with portIn := [0x8001, 0x0002] })) (fun t => t.readReg 1 == 0x8001 && t.portIn == [0x0002] && t.events == [.read 0x0005 0x8001]) &&
    gives (execWords [0x1010, 0xE210] ({ start (fl 0 0 0 0) [(2, 0x0004)] with portIn := [0x0007] })) (fun t => t.readReg 1 == 0x0007 && t.events == [.read 0x0104 0x0007]) &&
    gives (execWords [0xF013] (start (fl 0 0 0 0) [(1, 0x0041)])) (fun t => t.events == [.write 0x0003 0x0041]) &&
    gives (execWords [0xF21F] (start (fl 0 0 0 0) [(2, 0xFFF8), (1, 0xFFFF)])) (fun t => t.events == [.write 0x0007 0xFFFF])) = true := by decide

/-- The state of the lines of section 2.9: pc 0x0008, irq up, INT_VECTOR 0x0040 (an illustrative value). -/
def asked (ie sleeping irq : Bool) : State :=
  { start (fl 1 0 0 0) [] with
    pc := 0x0008, immhi := 0x123, ie := ie, sleeping := sleeping, irqIn := [irq, irq]
    platform := { State.reset.platform with intVector := some 0x0040 } }

/-- Section 2.9: entry, awake and asleep; no entry with IE = 0 or irq = 0. -/
theorem test_interrupts :
    (gives (step (asked true false true)) (fun t => t.sImmhi == 0x123 && t.sFlags == 0x8 && t.readReg 14 == 0x0008 && t.immhi == 0 &&
      !t.ie && t.pc == 0x0040 && t.flags == fl 1 0 0 0) &&
     gives (step (asked true true true)) (fun t => t.readReg 14 == 0x0008 && !t.sleeping && !t.ie && t.pc == 0x0040) &&
     gives (step (asked false false true)) (fun t => t.pc == 0x000A && t.readReg 14 == 0) &&
     gives (step (asked false true true)) (fun t => t.sleeping && t.pc == 0x0008 && t.immhi == 0x123) &&
     gives (step (asked true true false)) (fun t => t.sleeping && t.pc == 0x0008 && t.immhi == 0x123 && t.ie)) = true := by decide

/-- A sample of irq is drawn at every step, with IE = 0 too (R324; steps 6 to 8 of Program 5, where the level changes with IE = 0). -/
theorem test_irq_is_sampled_at_every_step :
    ([asked false false true, asked false true true, asked true false false, asked true true true].all fun s =>
      gives (step { s with irqIn := [s.irqLevel, false] }) fun t => t.irqIn == [false] && t.irqTaken == 1 && !t.irqLevel) = true := by
  decide

/-- The parameters (R6): ENDIAN big (R51), R0_ZERO false (R21), LR_INDEX 7 and ILR_INDEX 6 (R32), the reading of U6 (R289), a FLAG_RULES
in which MOV writes Z (R170), and a code memory of its own (R66). -/
theorem test_parameters :
    (gives (exec (.ld 2 1 0) { startMem [(2, 0x0102)] with params := { Params.spec with endian := .big } })
      (fun t => t.readReg 1 == 0x3412) &&
     gives (exec (.st 2 1 2) { startMem [(2, 0x0100), (1, 0xBEEF)] with params := { Params.spec with endian := .big } })
      (fun t => t.mem.read 0x0102 == 0xBE && t.mem.read 0x0103 == 0xEF) &&
     gives (exec (.movRI 0 5) { start (fl 0 0 0 0) [] with params := { Params.spec with r0Zero := false } })
      (fun t => t.readReg 0 == 5) &&
     gives (exec (.bl 3 0) { start (fl 0 0 0 0) [(3, 0x0200)] with params := { Params.spec with lrIndex := 7 } })
      (fun t => t.readReg 7 == 0x0012 && t.readReg 15 == 0 &&
        gives (exec .ret t) fun u => u.pc == 0x0012) &&
     gives (step { asked true false true with params := { Params.spec with ilrIndex := 6 } })
      (fun t => t.readReg 6 == 0x0008 && t.readReg 14 == 0) &&
     gives (exec (.ldb 2 1 0) { startMem [(2, 0x0102), (1, 0xABCD)] with params := { Params.spec with byteLoadFill := .keep } })
      (fun t => t.readReg 1 == 0xAB34) &&
     gives (exec (.movRR 1 2) { start (fl 0 1 0 1) [(1, 5)] with params :=
        { Params.spec with flagRules := { FlagRules.spec with mov := { z := true, c := .clear, s := false, v := .keep } } } })
      (fun t => t.flags == fl 1 0 0 1) &&
     gives (step { start (fl 0 0 0 0) [] with code := [(0x0010, 0x14), (0x0011, 0x30)], params := { Params.spec with unifiedMem := false } })
      (fun t => t.readReg 1 == 4) &&
     gives (step ((State.resetWith { Params.spec with unifiedMem := false, endian := .big, resetVector := 0x0100 }).withFetchWord 16 0x3014))
      (fun t => t.readReg 1 == 4 && t.mem == [] && t.pc == 0x0102)) = true := by decide

/-- Section 2.9: STI with a request pending, then the entry with the address after it. -/
theorem test_sti_then_interrupt :
    gives (execWords [0x0601] { asked false false true with pc := 0x0004 }) (fun t => t.ie && t.pc == 0x0006 &&
      gives (step t) fun u => u.readReg 14 == 0x0006 && u.pc == 0x0040) = true := by decide

/-- The instruction that withFetchWord places is the one the next step runs, a word or the second word of a pair. -/
theorem test_fetch_word :
    (gives (step (State.reset.withFetchWord 16 0x3014)) (fun t => t.readReg 1 == 4 && t.pc == 0x0002) &&
     gives (step (State.reset.withFetchWord 32 0x67F31001)) (fun t => t.flags == fl 1 0 0 0 && t.pc == 0x0002)) = true := by decide

/-! ### Witnesses: the hypotheses of every obligation are met, each clause at boundary values -/

theorem witness_NopOnlyAdvances : (0x01 : BitVec 8) ≠ 0 ∧ (0xFF : BitVec 8) ≠ 0 := by decide

theorem witness_ReturnThroughLink :
    ∃ t, exec (.bl 3 2) (start (fl 0 0 0 0) [(3, 0x0200)]) = .next t ∧
      (start (fl 0 0 0 0) [(3, 0x0200)]).discards (start (fl 0 0 0 0) [(3, 0x0200)]).params.lrIndex = false ∧
      { t with pc := 0x0300 }.params = t.params ∧
      { t with pc := 0x0300 }.readReg t.params.lrIndex = t.readReg t.params.lrIndex ∧ t.readReg t.params.lrIndex = 0x0012 :=
  ⟨_, rfl, by decide, rfl, rfl, by decide⟩

theorem witness_FlagSetAndClear :
    (Instr.sz, { (fl 0 0 0 0) with z := true }) ∈
      [(Instr.cz, { (fl 0 0 0 0) with z := false }), (.sz, { (fl 0 0 0 0) with z := true })] := by decide

theorem witness_FlagsThroughRegister :
    (start (fl 1 0 0 1) []).discards (low 15) = false ∧
    ∃ t, exec (.stf 15) (start (fl 1 0 0 1) []) = .next t ∧ t.readReg (low 15) = 9 := ⟨by decide, _, rfl, by decide⟩

theorem witness_ShiftsAndRotates : (0x8001 : Word) = (start (fl 0 1 0 1) [(3, 0x8001)]).readReg (low 3) := by decide

theorem witness_InterruptEnable :
    ∃ t, exec .sti { start (fl 0 0 0 0) [] with irqIn := [true] } = .next t ∧ t.irqLevel = true := ⟨_, rfl, rfl⟩

theorem witness_PrefixLastsOneInstruction :
    ∃ t, exec (.outPort 0 1 15) { start (fl 0 0 0 0) [] with immhi := 0xFFF } = .next t ∧
      (∀ h, Instr.outPort 0 1 15 ≠ .imm h) ∧ Instr.outPort 0 1 15 ≠ .iret := ⟨_, rfl, nofun, nofun⟩

theorem witness_ClassTwoAlu : (start (fl 0 0 0 0) []).params.flagRules = FlagRules.spec := by decide

/-- The premise of AddFlags, SubtractFlags, LogicFlags, TransfersAndPermutations, and with the two readings that of MultiplyHalves. -/
theorem witness_MultiplyHalves :
    Params.spec.flagRules = FlagRules.spec ∧ Params.spec.muluReading = .signedSigned ∧
    { Params.spec with muluReading := .signedUnsigned }.muluReading = .signedUnsigned := by decide

theorem witness_ClassThreeAlu :
    (AluOp.umulu ≠ .rrn ∧ AluOp.umulu ≠ .rln ∧ AluOp.umulu ≠ .bswap) ∧ (start (fl 0 0 0 0) []).immhi = 0 := by decide

theorem witness_CompareOrderings :
    Params.spec.flagRules = FlagRules.spec ∧
    fl 0 0 0 1 = (alu Params.spec .cmp 0x8000 0x7FFF (fl 1 1 1 1)).flags ∧ fl 0 1 1 1 = (alu Params.spec .cmp 0x7FFF 0x8000 (fl 0 0 0 0)).flags ∧
    fl 1 0 0 0 = (alu Params.spec .cmp 0xFFFF 0xFFFF (fl 0 0 0 0)).flags := by decide

theorem witness_Branches :
    Cond.gt ≠ .l ∧ Cond.gt.holds (start (fl 0 0 1 1) []).flags = true ∧ Cond.gt.holds (start (fl 1 0 1 1) []).flags = false := by
  decide

theorem witness_ConditionalMove :
    Cond.le.holds (start (fl 1 0 0 0) []).flags = true ∧ Cond.le.holds (start (fl 0 0 0 0) []).flags = false ∧
    Cond.l.holds (start (fl 0 0 0 0) []).flags = true := by decide

theorem witness_ClassSixAlu :
    { start (fl 0 0 0 0) [] with immhi := 0xFFF }.immhi.extractLsb' 0 4 = AluOp.bswap.toBits ∧
    { start (fl 0 0 0 0) [] with immhi := 0xFF0 }.immhi.extractLsb' 0 4 = AluOp.mov.toBits := by decide

theorem witness_ExtendedRegistersOnlyByClassSix :
    (start (fl 0 0 0 0) []).params.lrIndex.toNat < 16 ∧ { Params.spec with lrIndex := 0 }.lrIndex.toNat < 16 ∧
    (∃ t, exec (.movRI 15 15) (start (fl 0 0 0 0) []) = .next t) ∧ (∀ w ∈ encode (.movRI 15 15), nibble3 w ≠ 0x6#4) ∧
    16 ≤ (16 : RegNum).toNat ∧ 16 ≤ (127 : RegNum).toNat :=
  ⟨by decide, by decide, ⟨_, exec_class3 .mov 15 15 _ nofun nofun nofun⟩, by rw [show encode (.movRI 15 15) = [0x30FF] by decide]; simp; decide,
    by decide, by decide⟩

theorem witness_ClassNineAlu :
    Cond.nz.holds (start (fl 0 0 0 0) []).flags = true ∧ Cond.nz.holds (start (fl 1 0 0 0) []).flags = false ∧
    { start (fl 0 0 0 0) [] with immhi := 0xF1E }.immhi.extractLsb' 0 4 = AluOp.umulu.toBits ∧
    { start (fl 0 0 0 0) [] with immhi := 0xF1E }.immhi.extractLsb' 4 4 = Cond.nz.toBits := by decide

theorem witness_PairRunsAsItsRow :
    decodePair 0x1FFF 0x67F3 = some (.bswapX .toRx 127 3) ∧ decodePair 0x10E3 0x9123 = some (.subT .a 1 2 3) ∧
    (start (fl 0 0 0 0) []).immhi = 0 := by decide

theorem witness_ByteLoads :
    (startMem [(2, 0xFFF0)]).admitsMem (effAddr (startMem [(2, 0xFFF0)]) 2 15) = true ∧
    effAddr (startMem [(2, 0xFFF0)]) 2 15 = 0xFFFF ∧
    (startMem []).admitsMem (effAddr (startMem []) 0 0) = true := by decide

theorem witness_WordLoad :
    (effAddr (startMem [(2, 0xFFF0)]) 2 14).getLsbD 0 = false ∧ effAddr (startMem [(2, 0xFFF0)]) 2 14 = 0xFFFE ∧
    (startMem [(2, 0xFFF0)]).admitsMem (effAddr (startMem [(2, 0xFFF0)]) 2 14) = true ∧
    (startMem [(2, 0xFFF0)]).admitsMem (effAddr (startMem [(2, 0xFFF0)]) 2 14 + 1) = true := by decide

theorem witness_ByteStore :
    (startMem [(2, 0xFFF0)]).mem.wf = true ∧ (startMem [(2, 0xFFF0)]).admitsMem (effAddr (startMem [(2, 0xFFF0)]) 2 15) = true ∧
    (startMem [(2, 0xFFF0)]).isText (effAddr (startMem [(2, 0xFFF0)]) 2 15) = false := by decide

theorem witness_WordStore :
    (startMem [(2, 0xFFF0)]).mem.wf = true ∧ (effAddr (startMem [(2, 0xFFF0)]) 2 14).getLsbD 0 = false ∧
    (startMem [(2, 0xFFF0)]).admitsMem (effAddr (startMem [(2, 0xFFF0)]) 2 14) = true ∧
    (startMem [(2, 0xFFF0)]).admitsMem (effAddr (startMem [(2, 0xFFF0)]) 2 14 + 1) = true ∧
    (startMem [(2, 0xFFF0)]).isText (effAddr (startMem [(2, 0xFFF0)]) 2 14) = false ∧
    (startMem [(2, 0xFFF0)]).isText (effAddr (startMem [(2, 0xFFF0)]) 2 14 + 1) = false := by decide

/-- At the last word of M with displacement 14, the last from which the next does not wrap, and with 0 and 15. -/
theorem witness_LoadAfterStore :
    (startMem [(2, 0xFFF0), (1, 0xBEEF)]).mem.wf = true ∧ (startMem [(2, 0xFFF0), (1, 0xBEEF)]).discards (low 15) = false ∧
    (∃ t, exec (.st 2 1 14) (startMem [(2, 0xFFF0), (1, 0xBEEF)]) = .next t) ∧ (14 : Imm4) ≠ 15#4 ∧
    effAddr (startMem [(2, 0xFFF0), (1, 0xBEEF)]) 2 14 = 0xFFFE ∧
    (∃ t, exec (.st 2 1 0) (startMem [(2, 0x0000), (1, 0xBEEF)]) = .next t) ∧ (0 : Imm4) ≠ 15#4 ∧
    (∃ t, exec (.st 2 1 15) (startMem [(2, 0x0101), (1, 0xBEEF)]) = .next t) :=
  ⟨by decide, by decide, ⟨_, rfl⟩, by decide, by decide, ⟨_, rfl⟩, by decide, ⟨_, rfl⟩⟩

theorem witness_UpperLoads : (upperAddr (start (fl 0 0 0 0) [(2, 0xFFFE)]) 2).getLsbD 0 = false := by decide

theorem witness_UpperStores :
    (start (fl 0 0 0 0) [(2, 0xFFFE)]).upper.wf = true ∧ (upperAddr (start (fl 0 0 0 0) [(2, 0xFFFE)]) 2).getLsbD 0 = false := by
  decide

theorem witness_UpperLoadAfterStore :
    (start (fl 0 0 0 0) [(2, 0xFFFE), (1, 0xBEEF)]).upper.wf = true ∧
    (start (fl 0 0 0 0) [(2, 0xFFFE), (1, 0xBEEF)]).discards (low 3) = false ∧
    ∃ t u, exec (.ust 2 1) (start (fl 0 0 0 0) [(2, 0xFFFE), (1, 0xBEEF)]) = .next t ∧ exec (.uld 2 3) t = .next u :=
  ⟨by decide, by decide, _, _, rfl, rfl⟩

theorem witness_MisalignedFaults :
    (effAddr (startMem [(2, 0xFFF0)]) 2 15).getLsbD 0 = true ∧ (effAddr (startMem []) 0 1).getLsbD 0 = true ∧
    (upperAddr (start (fl 0 0 0 0) [(2, 0xFFFF)]) 2).getLsbD 0 = true ∧
    { State.reset with pc := 0xFFFF }.interruptTaken = false ∧ { State.reset with pc := 0xFFFF }.sleeping = false ∧
    { State.reset with pc := 0xFFFF }.pc.getLsbD 0 = true := by decide

/-- A platform without the addresses from 0x8001 on, so that 0x8000 is admitted and the byte after it is not, without the ports from
0x0100 on, and with program text at 0x0000 to 0x00FE and at 0x0201. -/
def bounded (rs : List (RegNum × Word)) : State :=
  { start (fl 0 0 0 0) rs with
    platform := { State.reset.platform with
      absentMem := [⟨0x8001, 0xFFFF⟩], absentPorts := [⟨0x0100, 0xFFFF⟩], text := [⟨0x0000, 0x00FE⟩, ⟨0x0201, 0x0201⟩] } }

theorem witness_RefusedAccesses :
    (bounded [(2, 0x8002)]).admitsMem (effAddr (bounded [(2, 0x8002)]) 2 0) = false ∧
    (effAddr (bounded [(2, 0x8002)]) 2 0).getLsbD 0 = false ∧
    (bounded [(2, 0x00F0)]).admitsMem (effAddr (bounded [(2, 0x00F0)]) 2 14) = true ∧
    (bounded [(2, 0x00F0)]).isText (effAddr (bounded [(2, 0x00F0)]) 2 14) = true ∧
    (effAddr (bounded [(2, 0x00F0)]) 2 14).getLsbD 0 = false ∧
    (bounded [(2, 0x00F0)]).isText (effAddr (bounded [(2, 0x00F0)]) 2 13) = true ∧
    (bounded [(2, 0x0100)]).admitsPort (portAddr (bounded [(2, 0x0100)]) 2 0) = false := by decide

/-- The second byte of a word: not admitted at 0x8001, program text at 0x0201. -/
theorem witness_RefusedAccesses_second_byte :
    (effAddr (bounded [(2, 0x8000)]) 2 0).getLsbD 0 = false ∧
    (bounded [(2, 0x8000)]).admitsMem (effAddr (bounded [(2, 0x8000)]) 2 0) = true ∧
    (bounded [(2, 0x8000)]).isText (effAddr (bounded [(2, 0x8000)]) 2 0) = false ∧
    (bounded [(2, 0x8000)]).admitsMem (effAddr (bounded [(2, 0x8000)]) 2 0 + 1) = false ∧
    (effAddr (bounded [(2, 0x0200)]) 2 0).getLsbD 0 = false ∧
    (bounded [(2, 0x0200)]).admitsMem (effAddr (bounded [(2, 0x0200)]) 2 0) = true ∧
    (bounded [(2, 0x0200)]).isText (effAddr (bounded [(2, 0x0200)]) 2 0) = false ∧
    (bounded [(2, 0x0200)]).admitsMem (effAddr (bounded [(2, 0x0200)]) 2 0 + 1) = true ∧
    (bounded [(2, 0x0200)]).isText (effAddr (bounded [(2, 0x0200)]) 2 0 + 1) = true := by decide

/-- A fetch at 0x8002, where no byte is admitted, and at 0x8000, where the second is not. -/
theorem witness_RefusedAccesses_fetch :
    { bounded [] with pc := 0x8002 }.interruptTaken = false ∧ { bounded [] with pc := 0x8002 }.sleeping = false ∧
    { bounded [] with pc := 0x8002 }.pc.getLsbD 0 = false ∧ { bounded [] with pc := 0x8002 }.admitsFetch 0x8002 = false ∧
    { bounded [] with pc := 0x8000 }.interruptTaken = false ∧ { bounded [] with pc := 0x8000 }.sleeping = false ∧
    { bounded [] with pc := 0x8000 }.pc.getLsbD 0 = false ∧ { bounded [] with pc := 0x8000 }.admitsFetch 0x8000 = true ∧
    { bounded [] with pc := 0x8000 }.admitsFetch (0x8000 + 1) = false ∧ (bounded []).params.unifiedMem = true := by decide

theorem witness_PortInput :
    (bounded [(2, 0x00F0)]).admitsPort (portAddr (bounded [(2, 0x00F0)]) 2 15) = true ∧
    portAddr (bounded [(2, 0x00F0)]) 2 15 = 0x00FF ∧ (bounded []).portIn = [] ∧
    { bounded [] with portIn := [0xFFFF] }.portIn = 0xFFFF :: [] := by decide

theorem witness_PortOutput : (bounded []).admitsPort (portAddr (bounded []) 0 0) = true := by decide

/-- The core at the last word of the address space, which holds `MOV r1, 4` in the memory that the fetch reads. -/
def atTop (ie unified : Bool) : State :=
  { start (fl 0 0 0 0) [] with
    pc := 0xFFFE, ie := ie, irqIn := [!ie]
    mem := if unified then [(0xFFFE, 0x14), (0xFFFF, 0x30)] else []
    code := if unified then [] else [(0xFFFE, 0x14), (0xFFFF, 0x30)]
    params := { Params.spec with unifiedMem := unified } }

theorem witness_StepRunsDecoded :
    ∀ ie unified, (atTop ie unified).interruptTaken = false ∧ (atTop ie unified).sleeping = false ∧
      (atTop ie unified).pc.getLsbD 0 = false ∧ (atTop ie unified).admitsFetch (atTop ie unified).pc = true ∧
      (atTop ie unified).admitsFetch ((atTop ie unified).pc + 1) = true ∧
      decode (atTop ie unified).params.endian [(atTop ie unified).codeMem.read (atTop ie unified).pc.toNat,
        (atTop ie unified).codeMem.read ((atTop ie unified).pc + 1).toNat] = .ok (.movRI 1 4, []) := by decide

theorem witness_InterruptTaken :
    (asked true false true).ie = true ∧ (asked true false true).irqLevel = true ∧
    (asked true true true).ie = true ∧ (asked true true true).irqLevel = true := by decide

theorem witness_SleepingCoreWaits :
    ((asked true true false).sleeping = true ∧ (asked true true false).interruptTaken = false) ∧
    ((asked false true true).sleeping = true ∧ (asked false true true).ie = false) ∧
    ∃ t, (asked false true true).StepsTo t ∧ (asked false true true).Reaches t :=
  ⟨by decide, by decide, _, rfl, .step rfl (.here _)⟩

theorem witness_InterruptIsTransparent :
    (asked true false true).ie = true ∧ (asked true false true).irqLevel = true ∧
    (asked true false true).discards (asked true false true).params.ilrIndex = false ∧
    ∃ t, step (asked true false true) = .next t ∧
      { t with flags := fl 0 1 1 1, pc := 0x0044 }.params = t.params ∧
      { t with flags := fl 0 1 1 1, pc := 0x0044 }.readReg t.params.ilrIndex = t.readReg t.params.ilrIndex ∧
      { t with flags := fl 0 1 1 1, pc := 0x0044 }.sImmhi = t.sImmhi ∧
      { t with flags := fl 0 1 1 1, pc := 0x0044 }.sFlags = t.sFlags :=
  ⟨by decide, by decide, by decide, _, rfl, rfl, rfl, rfl, rfl⟩

theorem witness_RegisterFile :
    (start (fl 0 0 0 0) []).params.r0Zero = true ∧ { Params.spec with r0Zero := false }.r0Zero = false := by decide

theorem witness_StepKeepsInv : (startMem []).Inv ∧ ∃ t, step (startMem []) = .next t :=
  ⟨⟨by decide, by decide, by decide, by decide, by decide, by decide⟩, _, rfl⟩

theorem witness_ControlStateWriters :
    (∃ t, exec .sti (start (fl 0 0 0 0) []) = .next t ∧ t.ie ≠ (start (fl 0 0 0 0) []).ie) ∧
    (∃ t, exec (.rsix 5) (start (fl 0 0 0 0) [(5, 0xABC5)]) = .next t ∧ t.sImmhi ≠ (start (fl 0 0 0 0) [(5, 0xABC5)]).sImmhi ∧
      t.sFlags ≠ (start (fl 0 0 0 0) [(5, 0xABC5)]).sFlags) ∧
    (∃ t, exec .sleep (start (fl 0 0 0 0) []) = .next t ∧ t.sleeping ≠ (start (fl 0 0 0 0) []).sleeping) :=
  ⟨⟨_, rfl, by decide⟩, ⟨_, rfl, by decide, by decide⟩, ⟨_, rfl, by decide⟩⟩

theorem witness_SpaceWriters :
    (∃ t, exec (.stb 2 1 15) (start (fl 0 0 0 0) [(2, 0xFFF0), (1, 0x0001)]) = .next t ∧
      ∃ a, t.mem.read a ≠ (start (fl 0 0 0 0) [(2, 0xFFF0), (1, 0x0001)]).mem.read a) ∧
    (∃ t, exec (.outPort 0 1 3) (start (fl 0 0 0 0) []) = .next t ∧ t.events ≠ (start (fl 0 0 0 0) []).events) :=
  ⟨⟨_, rfl, 0xFFFF, by decide⟩, ⟨_, rfl, by decide⟩⟩

/-- The clause on U: a byte that USTB changes, wherever UPPER_MAP puts it. -/
theorem witness_SpaceWriters_upper (t : State) (h : exec (.ustb 2 1) (start (fl 0 0 0 0) [(2, 0x0101), (1, 0x0001)]) = .next t) :
    t.upper.read (upperLoc 0x0101) ≠ (start (fl 0 0 0 0) [(2, 0x0101), (1, 0x0001)]).upper.read (upperLoc 0x0101) := by
  obtain rfl := Host.Outcome.next.inj h
  have hr : Memory.read (Memory.write [] (upperLoc 0x0101) 0x01) (upperLoc 0x0101) = 0x01 := by
    simp [Memory.write, Memory.read, Memory.unlisted]
  show Memory.read (Memory.write [] (upperLoc 0x0101) 0x01) (upperLoc 0x0101) ≠ 0x00
  rw [hr]
  decide

theorem witness_ControlTransfers :
    ∃ t, exec (.bgt 3 2) (start (fl 0 0 1 1) [(3, 0x0200)]) = .next t ∧ t.pc ≠ (start (fl 0 0 1 1) [(3, 0x0200)]).pc + 2 :=
  ⟨_, rfl, by decide⟩

theorem witness_OverflowFlagWriters :
    (start (fl 0 0 0 0) []).params.flagRules = FlagRules.spec ∧
    (∃ t, exec (.addRR 1 2) (start (fl 0 0 0 0) [(1, 0x7FFF), (2, 1)]) = .next t ∧
      t.flags.v ≠ (start (fl 0 0 0 0) [(1, 0x7FFF), (2, 1)]).flags.v) ∧
    (∃ t, exec (.class6Word .toRx 100 2) { start (fl 0 0 0 0) [(100, 0x8000), (2, 1)] with immhi := 0x003 } = .next t ∧
      t.flags.v ≠ { start (fl 0 0 0 0) [(100, 0x8000), (2, 1)] with immhi := 0x003 }.flags.v) :=
  ⟨by decide, ⟨_, rfl, by decide⟩, ⟨_, rfl, by decide⟩⟩

theorem witness_OpcodeMaps : nibble3 0x6FFF = 0x6#4 ∧ nibble3 0x9FFF = 0x9#4 := by decide

theorem witness_DecodeEncode :
    Instr.wellFormed (.reservedRetNonzero 0x02) = true ∧ Instr.wellFormed (.movCc .l 15 15) = true ∧
    Instr.wellFormed (.bswapX .toRl 127 15) = true ∧ Instr.wellFormed (.bswapT .l 15 15 15) = true := by decide

end Sys2Proof.Tests
end

section
/-! PROOFS (the family of 30_encoding.md). The opcode maps: what the decoder reads in a word or a pair, by the class of the word
(R84), and from that the numbers of the operations, the conditions and the FLG codes (R86 to R89). -/

namespace Sys2Proof

/-! ### What a word is, by its class -/

section WordOfClass
variable {w : Word}

/-- Class 0 sub-class 4 holds the single register operations (R85). -/
theorem decodeWord_of_sub4 (h3 : nibble3 w = 0x0) (h2 : nibble2 w = 0x4) : decodeWord w = decodeClass0Sub4 w := by
  simp [decodeWord, decodeClass0, h3, h2]

theorem decodeWord_of_class2 (h : nibble3 w = 0x2) :
    decodeWord w = Instr.class2 (AluOp.ofBits (nibble2 w)) (nibble1 w) (nibble0 w) := by
  simp [decodeWord, h]

theorem decodeWord_of_class3 (h : nibble3 w = 0x3) :
    decodeWord w = Instr.class3 (AluOp.ofBits (nibble2 w)) (nibble1 w) (nibble0 w) := by
  simp [decodeWord, h]

theorem decodeWord_of_class4 (h : nibble3 w = 0x4) :
    decodeWord w = Instr.branch (Cond.ofBits (nibble2 w)) (nibble1 w) (nibble0 w) := by
  simp [decodeWord, h]

theorem decodeWord_of_class5 (h : nibble3 w = 0x5) :
    decodeWord w = Instr.condMove (Cond.ofBits (nibble2 w)) (nibble1 w) (nibble0 w) := by
  simp [decodeWord, h]

theorem decodeWord_of_class6 (h : nibble3 w = 0x6) :
    decodeWord w = .class6Word (Dir.ofBit (dirBit w)) (rxField w) (nibble0 w) := by
  simp [decodeWord, h]

theorem decodeWord_of_class7 (h : nibble3 w = 0x7) : decodeWord w = decodeClass7 w := by
  simp [decodeWord, h]

theorem decodeWord_of_class9 (h : nibble3 w = 0x9) :
    decodeWord w = .class9Word (nibble2 w) (nibble1 w) (nibble0 w) := by
  simp [decodeWord, h]

end WordOfClass

/-! ### What a pair is, by the class of its second word -/

/-- A class 1 word gives the operation by its lowest nibble (R92). -/
theorem prefixOp_low12 (p : Word) : prefixOp (low12 p) = AluOp.ofBits (nibble0 p) := by
  have h : (low12 p).extractLsb' 0 4 = nibble0 p := by
    simp only [low12, nibble0]
    rw [BitVec.extractLsb'_extractLsb'_of_le (by omega)]
  rw [prefixOp, h]

/-- A class 1 word gives the condition by its second nibble (R92). -/
theorem prefixCond_low12 (p : Word) : prefixCond (low12 p) = Cond.ofBits (nibble1 p) := by
  have h : (low12 p).extractLsb' 4 4 = nibble1 p := by
    simp only [low12, nibble1]
    rw [BitVec.extractLsb'_extractLsb'_of_le (by omega)]
  rw [prefixCond, h]

section PairOfClass
variable {p w : Word}

/-- A class 1 and a class 6 word: of the first only the operation counts (R92, R93). -/
theorem decodePair_of_class6 (hp : nibble3 p = 0x1) (hw : nibble3 w = 0x6) :
    decodePair p w =
      some (Instr.class6 (AluOp.ofBits (nibble0 p)) (Dir.ofBit (dirBit w)) (rxField w) (nibble0 w)) := by
  simp [decodePair, hp, hw, decodeWord_of_class6 hw, Instr.resolve, prefixOp_low12]

/-- A class 1 and a class 9 word: of the first only the operation and the condition count (R92, R93). -/
theorem decodePair_of_class9 (hp : nibble3 p = 0x1) (hw : nibble3 w = 0x9) :
    decodePair p w =
      some (Instr.class9 (AluOp.ofBits (nibble0 p)) (Cond.ofBits (nibble1 p)) (nibble2 w) (nibble1 w) (nibble0 w)) := by
  simp [decodePair, hp, hw, decodeWord_of_class9 hw, Instr.resolve, prefixOp_low12, prefixCond_low12]

end PairOfClass

/-! ### The opcode maps -/

/-- Where the row of a class is chosen by the nibble `w[11:8]`, its words in the order of that nibble are the rows of the
numbered names. -/
theorem map_decodeWord_eq {Op : Type} {cls : BitVec 4} {ofBits : BitVec 4 → Op} {row : Op → BitVec 4 → BitVec 4 → Instr}
    (hclass : ∀ w, nibble3 w = cls → decodeWord w = row (ofBits (nibble2 w)) (nibble1 w) (nibble0 w))
    (numbers : List Nat) {names : List Op} (hnames : numbers.map (fun n => ofBits (BitVec.ofNat 4 n)) = names)
    (d r : BitVec 4) :
    numbers.map (fun n => decodeWord (cls ++ BitVec.ofNat 4 n ++ d ++ r)) = names.map (row · d r) := by
  have hword (n : BitVec 4) : decodeWord (cls ++ n ++ d ++ r) = row (ofBits n) d r := by
    have h := hclass (word4 cls n d r) (nibble3_word4 cls n d r)
    rw [nibble2_word4, nibble1_word4, nibble0_word4] at h
    exact h
  simp [← hnames, hword]

/-- The ALU operations by number (R87). -/
theorem aluOp_numbers :
    [0, 1, 2, 3, 4, 5, 6, 7, 8, 9, 10, 11, 12, 13, 14, 15].map (fun n => AluOp.ofBits (BitVec.ofNat 4 n)) =
      [.mov, .add, .adc, .sub, .sbb, .and, .or, .xor, .mul, .mulu, .rrn, .rln, .cmp, .test, .umulu, .bswap] := rfl

/-- The conditions by number (R88). -/
theorem cond_numbers :
    [0, 1, 2, 3, 4, 5, 6, 7, 8, 9, 10, 11, 12, 13, 14, 15].map (fun n => Cond.ofBits (BitVec.ofNat 4 n)) =
      [.z, .nz, .s, .ns, .c, .nc, .v, .nv, .lt, .le, .gt, .ge, .leu, .gtu, .a, .l] := rfl

/-- The single register operations by number, 16 and up (R86). -/
theorem singleRegister_numbers (r : BitVec 4) :
    [0, 1, 2, 3, 4, 5, 6, 7, 8, 9, 10, 11, 12, 13, 14, 15].map (fun n => decodeWord (0x04#8 ++ BitVec.ofNat 4 n ++ r)) =
      [.asr r, .lsr r, .lsl r, .rolc r, .rorc r, .rol r, .ror r, .cc, .sc, .cz, .sz, .cs, .ss, .stf r, .rsf r,
       .reservedAlu31 r] := by
  have hword (n : BitVec 4) : decodeWord (0x04#8 ++ n ++ r) = decodeClass0Sub4 (word4 0x0 0x4 n r) :=
    decodeWord_of_sub4 (nibble3_word4 0x0 0x4 n r) (nibble2_word4 0x0 0x4 n r)
  simp only [hword, decodeClass0Sub4, nibble1_word4, nibble0_word4]
  rfl

/-- Settles O56: a map whose rows are chosen by a nibble of the word follows from the numbers of its names; in a pair the
operation and the condition are nibbles of the class 1 word. -/
theorem opcodeMaps : Obligations.OpcodeMaps := by
  unfold Obligations.OpcodeMaps
  refine ⟨singleRegister_numbers, aluOp_numbers, cond_numbers, fun d r => ⟨?class2, ?class3, ?class4, ?class5⟩,
    fun x n y c w => ⟨fun hw => ?class6, fun hw => ?class9⟩, fun i r x => ?class7⟩
  case class2 => exact map_decodeWord_eq (fun _ => decodeWord_of_class2) _ aluOp_numbers d r
  case class3 => exact map_decodeWord_eq (fun _ => decodeWord_of_class3) _ aluOp_numbers d r
  case class4 => exact map_decodeWord_eq (fun _ => decodeWord_of_class4) _ cond_numbers d r
  case class5 => exact map_decodeWord_eq (fun _ => decodeWord_of_class5) _ cond_numbers d r
  case class6 =>
    have hclass : nibble3 (0x1#4 ++ y ++ n) = 0x1 := by
      rw [nibble3, extract_append_up _ _ _ _ (by omega)]
      exact extract_append_high 0x1#4 y
    have hop : nibble0 (0x1#4 ++ y ++ n) = n := by
      rw [nibble0, extract_append_low _ _ _ _ (by omega), extract_all]
    have hpair := decodePair_of_class6 hclass hw
    rw [hop] at hpair
    exact hpair
  case class9 =>
    have hpair := decodePair_of_class9 (nibble3_word4 0x1 x c n) hw
    rw [nibble0_word4, nibble1_word4] at hpair
    exact hpair
  case class7 =>
    have hword : decodeWord (0x7#4 ++ i ++ r ++ x) = decodeClass7 (word4 0x7 i r x) :=
      decodeWord_of_class7 (nibble3_word4 0x7 i r x)
    simp only [decodeClass7, low3_word4, nibble2_word4, nibble1_word4] at hword
    exact hword

end Sys2Proof
end

section
/-! PROOFS (the family of 40_class0_general.md). The class 0 instructions that move no data through the ALU: NOP, the two accesses
to the interrupt context, and the six writes of one flag (R121, R124, R125, R134 to R139). -/

namespace Sys2Proof

/-! ### Class 0 words, by their sub-class (R85) -/

section WordOfSubClass
variable {w : Word}

theorem decodeWord_of_class0 (h3 : nibble3 w = 0x0) : decodeWord w = decodeClass0 w := by
  simp [decodeWord, h3]

theorem decodeWord_of_sub0 (h3 : nibble3 w = 0x0) (h2 : nibble2 w = 0x0) :
    decodeWord w = if low8 w = 0x00 then .nop else .reservedNopNonzero (low8 w) := by
  simp [decodeWord_of_class0 h3, decodeClass0, h2]

theorem decodeWord_of_sub2 (h3 : nibble3 w = 0x0) (h2 : nibble2 w = 0x2) : decodeWord w = .stix (nibble0 w) := by
  simp [decodeWord_of_class0 h3, decodeClass0, h2]

theorem decodeWord_of_sub3 (h3 : nibble3 w = 0x0) (h2 : nibble2 w = 0x3) : decodeWord w = .rsix (nibble0 w) := by
  simp [decodeWord_of_class0 h3, decodeClass0, h2]

end WordOfSubClass

/-- Sub-class 0 holds NOP at 0x00 and reserved words above it (R85, R94). -/
theorem decodeWord_sub0 (n : BitVec 8) :
    decodeWord (0x00#8 ++ n) = if n = 0x00 then .nop else .reservedNopNonzero n := by
  have h := decodeWord_of_sub0 (nibble3_word8 0x00 n) (nibble2_word8 0x00 n)
  rw [low8_word8] at h
  exact h

/-- STIX takes its register from the lowest nibble; `x` is ignored (R93). -/
theorem decodeWord_stix (x r : BitVec 4) : decodeWord (0x02#8 ++ x ++ r) = .stix r := by
  have h := decodeWord_of_sub2 (nibble3_word4 0x0 0x2 x r) (nibble2_word4 0x0 0x2 x r)
  rw [nibble0_word4] at h
  exact h

/-- RSIX takes its register from the lowest nibble; `x` is ignored (R93). -/
theorem decodeWord_rsix (x r : BitVec 4) : decodeWord (0x03#8 ++ x ++ r) = .rsix r := by
  have h := decodeWord_of_sub3 (nibble3_word4 0x0 0x3 x r) (nibble2_word4 0x0 0x3 x r)
  rw [nibble0_word4] at h
  exact h

/-- The words of the six flag operations, whose REG field is ignored (R86, R93). -/
theorem decodeWord_flagOps (r : BitVec 4) :
    decodeWord (0x047#12 ++ r) = .cc ∧ decodeWord (0x048#12 ++ r) = .sc ∧ decodeWord (0x049#12 ++ r) = .cz ∧
      decodeWord (0x04A#12 ++ r) = .sz ∧ decodeWord (0x04B#12 ++ r) = .cs ∧ decodeWord (0x04C#12 ++ r) = .ss := by
  have h := singleRegister_numbers r
  simp only [List.map_cons, List.cons.injEq] at h
  obtain ⟨-, -, -, -, -, -, -, hcc, hsc, hcz, hsz, hcs, hss, -⟩ := h
  exact ⟨hcc, hsc, hcz, hsz, hcs, hss⟩

namespace Machine

/-! ### What the instructions are, as operations on the state -/

theorem exec_nop (s : State) : exec .nop s = .next s.advance := rfl

theorem exec_imm (h : BitVec 12) (s : State) : exec (.imm h) s = .next (s.setPrefix h) := rfl

theorem exec_stix (r : LowReg) (s : State) : exec (.stix r) s = .next (s.writeReg (low r) s.context).advance := rfl

theorem exec_rsix (r : LowReg) (s : State) : exec (.rsix r) s = .next (s.setContext (s.readReg (low r))).advance := rfl

/-! ### What they leave unchanged -/

/-- A write of the flags that ends its instruction keeps everything but the flags, pc and the immediate register. -/
theorem frame_setFlags (s : State) (f : Flags) :
    s.SameRegs (s.setFlags f).advance ∧ s.MovesOn (s.setFlags f).advance ∧ s.SameRest (s.setFlags f).advance :=
  ⟨fun _ => rfl, ⟨rfl, rfl⟩, by apply sameRest_of_eq <;> rfl⟩

/-- A write of the interrupt context that ends its instruction keeps everything but the shadow registers, pc and the immediate
register. -/
theorem frame_setContext (s : State) (v : Word) :
    s.SameRegs (s.setContext v).advance ∧ (s.setContext v).advance.flags = s.flags ∧ s.MovesOn (s.setContext v).advance ∧
      s.SameMem (s.setContext v).advance ∧ s.SameUpper (s.setContext v).advance ∧ s.SamePorts (s.setContext v).advance ∧
      s.SameInputs (s.setContext v).advance ∧ s.SameMode (s.setContext v).advance :=
  ⟨fun _ => rfl, rfl, ⟨rfl, rfl⟩, fun _ => rfl, fun _ => rfl, ⟨rfl, rfl, rfl⟩, ⟨rfl, rfl, rfl, rfl, rfl⟩, ⟨rfl, rfl⟩⟩

/-- An instruction that is a write of the flags `f` has the effect that O6 states; what it owes of its own is that SZ sets Z
and SS sets S. -/
theorem flagWrite_done (i : Instr) {s : State} {f : Flags} (hexec : exec i s = .next (s.setFlags f).advance)
    (hz : i = .sz → f.z = true) (hs : i = .ss → f.s = true) :
    ∃ t, exec i s = .next t ∧ t.flags = f ∧ s.SameRegs t ∧ s.MovesOn t ∧ s.SameRest t ∧
      (i = .sz → Cond.z.holds t.flags = true) ∧ (i = .ss → Cond.s.holds t.flags = true) := by
  obtain ⟨regs, moves, rest⟩ := frame_setFlags s f
  exact ⟨_, hexec, rfl, regs, moves, rest, hz, hs⟩

end Machine

/-! ### The statements -/

open Machine

/-- Settles O1: NOP is the end of an instruction and nothing else, so after IMM it ends with the immediate register clear. -/
theorem nopOnlyAdvances : Obligations.NopOnlyAdvances := by
  unfold Obligations.NopOnlyAdvances
  refine ⟨decodeWord_sub0 0x00, fun n hn => ?reserved, fun s => ?nop, fun h s => ?afterImm⟩
  case reserved => rw [decodeWord_sub0, if_neg hn]
  case nop => exact ⟨_, exec_nop s, nothingDone_advance s⟩
  case afterImm =>
    have done := nothingDone_advance (s.setPrefix h)
    exact ⟨_, _, exec_imm h s, exec_nop _, done.moves.immhi⟩

/-- Settles O4: STIX is a move of the interrupt context into a register. -/
theorem stixReadsContext : Obligations.StixReadsContext :=
  ⟨decodeWord_stix, fun r s => ⟨_, exec_stix r s, moveDone_writeReg s (low r) s.context⟩⟩

/-- Settles O5: RSIX is a write of the interrupt context, which keeps the rest. -/
theorem rsixWritesContext : Obligations.RsixWritesContext :=
  ⟨decodeWord_rsix, fun r s =>
    ⟨_, exec_rsix r s, setContext_sImmhi s _, setContext_sFlags s _, frame_setContext s (s.readReg (low r))⟩⟩

/-- Settles O6: each of the six is a write of the flags that differ in one place from those before. -/
theorem flagSetAndClear : Obligations.FlagSetAndClear := by
  unfold Obligations.FlagSetAndClear
  refine ⟨decodeWord_flagOps, fun s p hp => ?_⟩
  simp only [List.mem_cons, List.not_mem_nil, or_false] at hp
  obtain rfl | rfl | rfl | rfl | rfl | rfl := hp
  · exact flagWrite_done .cc rfl nofun nofun
  · exact flagWrite_done .sc rfl nofun nofun
  · exact flagWrite_done .cz rfl nofun nofun
  · exact flagWrite_done .sz rfl (fun _ => rfl) nofun
  · exact flagWrite_done .cs rfl nofun nofun
  · exact flagWrite_done .ss rfl nofun (fun _ => rfl)

end Sys2Proof
end

section
/-! PROOFS (the family of 44_class6_9_two_word_alu.md). Class 6: its word read back, its sixteen rows as one operation with the
registers chosen by DIR, and the word as the row that the immediate register names (R260). -/

namespace Sys2Proof

/-- A class 6 word put together from its fields (format X of R82) decodes to them. -/
theorem decodeWord_wordExt (dir : Dir) (rx : RegNum) (rl : LowReg) :
    decodeWord (wordExt dir.toBit rx rl) = .class6Word dir rx rl := by
  rw [decodeWord_of_class6 (nibble3_wordExt _ _ _), dirBit_wordExt, rxField_wordExt, nibble0_wordExt, Dir.ofBit_toBit]

/-- The operation of a prefix is the one whose number its lowest four bits hold; the other eight do not count. -/
theorem prefixOp_of_low4 {h : BitVec 12} {op : AluOp} (hop : h.extractLsb' 0 4 = op.toBits) : prefixOp h = op := by
  rw [prefixOp, hop, AluOp.ofBits_toBits]

namespace Machine

/-- Every row of class 6 completes, with the effect of its operation on the registers that DIR chooses. -/
theorem class6_done (op : AluOp) (dir : Dir) (rx : RegNum) (rl : LowReg) (s : State) :
    ∃ t, exec (Instr.class6 op dir rx rl) s = .next t ∧
      s.AluDone t op (dir.dest rx rl) (s.readReg (dir.dest rx rl)) (s.readReg (dir.src rx rl)) :=
  ⟨_, exec_class6 op dir rx rl s, aluDone_applyAlu s op _ _ _⟩

/-- The class 6 word is the row of the operation whose number the immediate register holds in its lowest four bits. -/
theorem exec_class6Word_of_low4 {s : State} {op : AluOp} (hop : s.immhi.extractLsb' 0 4 = op.toBits) (dir : Dir)
    (rx : RegNum) (rl : LowReg) : exec (.class6Word dir rx rl) s = exec (Instr.class6 op dir rx rl) s := by
  rw [exec_class6Word, prefixOp_of_low4 hop]

end Machine

open Machine

/-- Settles O25: DIR chooses which of the two registers is the destination, and the word runs the row that its prefix names. -/
theorem classSixAlu : Obligations.ClassSixAlu := by
  unfold Obligations.ClassSixAlu
  refine ⟨fun rx rl => ⟨?wordToRx, ?wordToRl⟩, fun op rx rl s => ?rowToRx, fun op rx rl s => ?rowToRl,
    fun op dir rx rl s hop => ?wordIsRow⟩
  case wordToRx => exact decodeWord_wordExt .toRx rx rl
  case wordToRl => exact decodeWord_wordExt .toRl rx rl
  case rowToRx => exact class6_done op .toRx rx rl s
  case rowToRl => exact class6_done op .toRl rx rl s
  case wordIsRow =>
    obtain ⟨t, hrow, -⟩ := class6_done op dir rx rl s
    exact ⟨t, (exec_class6Word_of_low4 hop dir rx rl).trans hrow, hrow⟩

end Sys2Proof
end

section
/-! PROOFS (the machine as a whole, the rules of 10_state.md and 20_memory.md). What any instruction can change, field by field
and once, read off `Shape`; from that the invariant of every step, and which instructions write which part of the state. -/

namespace Sys2Proof

/-- The instructions that write a space outside the core: M, U or the ports (R38). -/
def Instr.isStore (i : Instr) : Bool :=
  match i with
  | .stb .. | .st .. | .ustb .. | .ust .. | .outPort .. => true
  | _ => false

/-- A row of class 6 is that row whatever the immediate register holds: only CLASS6_WORD takes its operation from it (R92). -/
theorem resolve_class6 (h : BitVec 12) (op : AluOp) (dir : Dir) (rx : RegNum) (rl : LowReg) :
    (Instr.class6 op dir rx rl).resolve h = Instr.class6 op dir rx rl := by
  cases op <;> rfl

/-- A row of class 9 is that row whatever the immediate register holds: only CLASS9_WORD takes its operation from it (R92). -/
theorem resolve_class9 (h : BitVec 12) (op : AluOp) (cond : Cond) (d a b : LowReg) :
    (Instr.class9 op cond d a b).resolve h = Instr.class9 op cond d a b := by
  cases op <;> rfl

namespace Machine

/-! ### The registers a field of the word can name -/

/-- A 4-bit field names one of the registers below 16 (R22). -/
theorem low_toNat_lt (r : LowReg) : (low r).toNat < 16 := by
  have h : (low r).toNat = r.toNat := by
    rw [low, BitVec.zeroExtend, BitVec.toNat_setWidth_of_le (by omega)]
  have := r.isLt
  omega

/-- A write to a register below 16 leaves those above as they are (R22). -/
theorem readReg_extended_of_wroteReg {s t : State} {d j : RegNum} {v : Word} (h : s.WroteReg t d v) (hd : d.toNat < 16)
    (hj : 16 ≤ j.toNat) : t.readReg j = s.readReg j := by
  rw [h j, if_neg]
  rintro ⟨rfl, -⟩
  omega

/-- An ALU operation into a register below 16 leaves those above as they are (R22). -/
theorem readReg_applyAlu_extended (s : State) (op : AluOp) {d j : RegNum} (a b : Word) (hd : d.toNat < 16)
    (hj : 16 ≤ j.toNat) : (applyAlu s op d a b).readReg j = s.readReg j := by
  rw [readReg_applyAlu, if_neg]
  rintro ⟨-, rfl, -⟩
  omega

theorem readReg_branch (s : State) (taken : Bool) (target : Word) (j : RegNum) :
    (s.branch taken target).readReg j = s.readReg j := by
  unfold State.branch
  split <;> rfl

/-! ### The flag V in the spec's FLAG_RULES -/

/-- Only the operations of a sum or a difference write V (R170). -/
theorem alu_keeps_v {p : Params} (hrules : p.flagRules = FlagRules.spec) (op : AluOp) (a b : Word) (f : Flags) :
    (alu p op a b f).flags.v = f.v ∨ op ∈ [AluOp.add, .adc, .sub, .sbb, .cmp] := by
  cases op with
  | add | adc | sub | sbb | cmp => simp
  | _ => simp [alu, aluFlags, hrules, FlagRules.row, FlagRules.spec, overflowFlag]

/-! ### What an instruction can change, field by field -/

section OfExec
variable {s t : State} {i : Instr}

/-- A store changes the spaces alone, and ends like every instruction that goes on (R38). -/
theorem store_frame (h : exec i s = .next t) (hi : i.isStore = true) :
    t = { s.advance with mem := t.mem, upper := t.upper, events := t.events } := by
  cases i with
  | stb =>
    obtain ⟨u, hw, hu⟩ := (andThen_next _ _ _).1 h
    obtain ⟨-, -, rfl⟩ := (memWriteByte_next _ _ _ _).1 hw
    obtain rfl := Host.Outcome.next.inj hu
    rfl
  | st =>
    obtain ⟨u, hw, hu⟩ := (andThen_next _ _ _).1 h
    obtain ⟨-, -, -, -, -, rfl⟩ := (memWriteWord_next _ _ _ _).1 hw
    obtain rfl := Host.Outcome.next.inj hu
    rfl
  | ustb =>
    obtain rfl := Host.Outcome.next.inj h
    rfl
  | ust =>
    obtain ⟨u, hw, hu⟩ := (andThen_next _ _ _).1 h
    obtain ⟨-, rfl⟩ := (upperWriteWord_next _ _ _ _).1 hw
    obtain rfl := Host.Outcome.next.inj hu
    rfl
  | outPort =>
    obtain ⟨u, hw, hu⟩ := (andThen_next _ _ _).1 h
    obtain ⟨-, rfl⟩ := (portWrite_next _ _ _ _).1 hw
    obtain rfl := Host.Outcome.next.inj hu
    rfl
  | _ => exact nomatch hi

/-- M is written by STB and ST alone (R38). -/
theorem mem_of_exec (h : exec i s = .next t) : t.mem = s.mem ∨ ∃ idx reg lo, i = .stb idx reg lo ∨ i = .st idx reg lo := by
  cases exec_shape i s t h with
  | stb idx reg lo => exact .inr ⟨idx, reg, lo, .inl rfl⟩
  | st idx reg lo => exact .inr ⟨idx, reg, lo, .inr rfl⟩
  | ust _ _ _ hw => obtain ⟨-, rfl⟩ := (upperWriteWord_next _ _ _ _).1 hw; exact .inl rfl
  | outPort _ _ _ _ hw => obtain ⟨-, rfl⟩ := (portWrite_next _ _ _ _).1 hw; exact .inl rfl
  | _ => exact .inl (by simp)

/-- U is written by USTB and UST alone (R38). -/
theorem upper_of_exec (h : exec i s = .next t) : t.upper = s.upper ∨ ∃ idx reg, i = .ustb idx reg ∨ i = .ust idx reg := by
  cases exec_shape i s t h with
  | ustb idx reg => exact .inr ⟨idx, reg, .inl rfl⟩
  | ust idx reg => exact .inr ⟨idx, reg, .inr rfl⟩
  | stb _ _ _ _ hw => obtain ⟨-, -, rfl⟩ := (memWriteByte_next _ _ _ _).1 hw; exact .inl rfl
  | st _ _ _ _ hw => obtain ⟨-, -, -, -, -, rfl⟩ := (memWriteWord_next _ _ _ _).1 hw; exact .inl rfl
  | outPort _ _ _ _ hw => obtain ⟨-, rfl⟩ := (portWrite_next _ _ _ _).1 hw; exact .inl rfl
  | _ => exact .inl (by simp)

/-- Only IN and OUT access a port (R38). -/
theorem events_of_exec (h : exec i s = .next t) :
    t.events = s.events ∨ ∃ rp rv lo, i = .inPort rp rv lo ∨ i = .outPort rp rv lo := by
  cases exec_shape i s t h with
  | inPort rp rv lo => exact .inr ⟨rp, rv, lo, .inl rfl⟩
  | outPort rp rv lo => exact .inr ⟨rp, rv, lo, .inr rfl⟩
  | stb _ _ _ _ hw => obtain ⟨-, -, rfl⟩ := (memWriteByte_next _ _ _ _).1 hw; exact .inl rfl
  | st _ _ _ _ hw => obtain ⟨-, -, -, -, -, rfl⟩ := (memWriteWord_next _ _ _ _).1 hw; exact .inl rfl
  | ust _ _ _ hw => obtain ⟨-, rfl⟩ := (upperWriteWord_next _ _ _ _).1 hw; exact .inl rfl
  | _ => exact .inl (by simp)

/-- No instruction changes the platform's record, the parameters or the code memory. -/
theorem sameSetup_of_exec (h : exec i s = .next t) : s.SameSetup t := by
  have hst := store_frame h
  cases exec_shape i s t h with
  | stb | st | ust | outPort => rw [hst rfl]; exact ⟨rfl, rfl, rfl⟩
  | _ => exact ⟨by simp, by simp, by simp⟩

/-- IE is written by CLI, STI and IRET alone (R34). -/
theorem ie_of_exec (h : exec i s = .next t) : t.ie = s.ie ∨ i = .cli ∨ i = .sti ∨ i = .iret := by
  have hst := store_frame h
  cases exec_shape i s t h with
  | cli | sti | iret => simp
  | stb | st | ust | outPort => rw [hst rfl]; exact .inl rfl
  | _ => exact .inl (by simp)

/-- The shadow registers are written by RSIX alone (R33). -/
theorem sameContext_of_exec (h : exec i s = .next t) : s.SameContext t ∨ ∃ r, i = .rsix r := by
  have hst := store_frame h
  cases exec_shape i s t h with
  | rsix r => exact .inr ⟨r, rfl⟩
  | stb | st | ust | outPort => rw [hst rfl]; exact .inl ⟨rfl, rfl⟩
  | _ => exact .inl ⟨by simp, by simp⟩

/-- The sleep state is written by SLEEP alone (R35). -/
theorem sleeping_of_exec (h : exec i s = .next t) : t.sleeping = s.sleeping ∨ i = .sleep := by
  have hst := store_frame h
  cases exec_shape i s t h with
  | sleep => exact .inr rfl
  | stb | st | ust | outPort => rw [hst rfl]; exact .inl rfl
  | _ => exact .inl (by simp)

/-- Every instruction but the branches, RET and IRET goes on at the next one (R26, R249). -/
theorem pc_of_exec (h : exec i s = .next t) :
    t.pc = s.pc + 2 ∨ i = .ret ∨ i = .iret ∨ ∃ cond r lo, i = Instr.branch cond r lo := by
  have hst := store_frame h
  cases exec_shape i s t h with
  | ret | iret => simp
  | branch cond r lo => exact .inr (.inr (.inr ⟨cond, r, lo, rfl⟩))
  | bl r lo => exact .inr (.inr (.inr ⟨.l, r, lo, rfl⟩))
  | stb | st | ust | outPort => rw [hst rfl]; exact .inl rfl
  | _ => exact .inl (by simp)

/-- Every instruction but IMM and IRET clears the immediate register (R31). -/
theorem immhi_of_exec (h : exec i s = .next t) : t.immhi = 0 ∨ (∃ k, i = .imm k) ∨ i = .iret := by
  have hst := store_frame h
  cases exec_shape i s t h with
  | imm k => exact .inr (.inl ⟨k, rfl⟩)
  | iret => exact .inr (.inr rfl)
  | stb | st | ust | outPort => rw [hst rfl]; exact .inl rfl
  | _ => exact .inl (by simp)

/-- Under R0_ZERO no instruction stores anything where register 0 is held (R21). -/
theorem regs_zero_of_exec (hz : s.params.r0Zero = true) (h : exec i s = .next t) : t.regs[0] = s.regs[0] := by
  have hst := store_frame h
  cases exec_shape i s t h with
  | stb | st | ust | outPort => rw [hst rfl]; rfl
  | class2 | class3 | class6 | class6Word => exact applyAlu_regs_zero _ _ _ _ _ hz
  | class9 | class9Word =>
    unfold condAlu
    split
    · exact applyAlu_regs_zero _ _ _ _ _ hz
    · rfl
  | condMove | movCc =>
    unfold State.condMove
    split
    · exact writeReg_regs_zero _ _ _ hz
    · rfl
  | bl | stix | stf | load | shift | inPort => exact writeReg_regs_zero _ _ _ hz
  | _ => simp

/-- Only a class 6 instruction changes a register above 15, where the link register is below (R22). -/
theorem readReg_extended_of_exec (hlr : s.params.lrIndex.toNat < 16) (h : exec i s = .next t)
    (hclass : ∀ w ∈ encode i, nibble3 w ≠ 0x6#4) {j : RegNum} (hj : 16 ≤ j.toNat) : t.readReg j = s.readReg j := by
  have hst := store_frame h
  cases exec_shape i s t h with
  | stb | st | ust | outPort => rw [hst rfl]; rfl
  | class6 op dir rx rl =>
    have hword : wordExt dir.toBit rx rl ∈ encode (Instr.class6 op dir rx rl) := by cases op <;> simp [Instr.class6, encode]
    exact absurd (nibble3_wordExt _ _ _) (hclass _ hword)
  | class6Word dir rx rl => exact absurd (nibble3_wordExt _ _ _) (hclass _ (List.mem_singleton_self _))
  | class2 | class3 => exact readReg_applyAlu_extended _ _ _ _ (low_toNat_lt _) hj
  | class9 | class9Word =>
    unfold condAlu
    split
    · exact readReg_applyAlu_extended _ _ _ _ (low_toNat_lt _) hj
    · rfl
  | condMove | movCc =>
    unfold State.condMove
    split
    · exact readReg_extended_of_wroteReg (moveDone_writeReg s _ _).reg (low_toNat_lt _) hj
    · rfl
  | bl => exact readReg_extended_of_wroteReg (wroteReg_branchLink s _) hlr hj
  | stix | stf | load => exact readReg_extended_of_wroteReg (moveDone_writeReg s _ _).reg (low_toNat_lt _) hj
  | shift op r => exact readReg_extended_of_wroteReg (shiftDone_applyShift s op (low r)).reg (low_toNat_lt r) hj
  | inPort rp rv lo v =>
    exact readReg_extended_of_wroteReg (moveDone_writeReg (s.tookPort (portAddr s rp lo) v) _ _).reg (low_toNat_lt rv) hj
  | branch => exact readReg_branch _ _ _ _
  | _ => rfl

/-- `i` is the ALU operation `op`, in class 2 or 3 by its word, or in class 6 or 9 under the immediate register of `s` (R92). -/
def State.RunsAlu (s : State) (i : Instr) (op : AluOp) : Prop :=
  (∃ d r, i = Instr.class2 op d r) ∨ (∃ d lo, i = Instr.class3 op d lo) ∨
  (∃ dir rx rl, i.resolve s.immhi = Instr.class6 op dir rx rl) ∨
  (∃ cond d a b, i.resolve s.immhi = Instr.class9 op cond d a b)

theorem condAlu_keeps_v (hrules : s.params.flagRules = FlagRules.spec) (cond : Cond) (op : AluOp) (d : RegNum) (a b : Word) :
    (condAlu s cond op d a b).flags.v = s.flags.v ∨ op ∈ [AluOp.add, .adc, .sub, .sbb, .cmp] := by
  unfold condAlu
  split
  · exact alu_keeps_v hrules op a b s.flags
  · exact .inl rfl

/-- By the spec's FLAG_RULES, V is written by RSF, IRET and the operations of a sum or a difference alone (R29). -/
theorem v_of_exec (hrules : s.params.flagRules = FlagRules.spec) (h : exec i s = .next t) :
    t.flags.v = s.flags.v ∨ (∃ r, i = .rsf r) ∨ i = .iret ∨
      ∃ op ∈ [AluOp.add, .adc, .sub, .sbb, .cmp], s.RunsAlu i op := by
  have hst := store_frame h
  have halu {op} (hruns : s.RunsAlu i op) (hv : t.flags.v = s.flags.v ∨ op ∈ [AluOp.add, .adc, .sub, .sbb, .cmp]) :
      t.flags.v = s.flags.v ∨ (∃ r, i = .rsf r) ∨ i = .iret ∨
        ∃ op ∈ [AluOp.add, .adc, .sub, .sbb, .cmp], s.RunsAlu i op :=
    hv.imp_right fun hop => .inr (.inr ⟨op, hop, hruns⟩)
  cases exec_shape i s t h with
  | rsf r => exact .inr (.inl ⟨r, rfl⟩)
  | iret => exact .inr (.inr (.inl rfl))
  | class2 op d r => exact halu (.inl ⟨d, r, rfl⟩) (alu_keeps_v hrules op _ _ _)
  | class3 op d lo => exact halu (.inr (.inl ⟨d, lo, rfl⟩)) (alu_keeps_v hrules op _ _ _)
  | class6 op dir rx rl =>
    exact halu (.inr (.inr (.inl ⟨dir, rx, rl, resolve_class6 _ op dir rx rl⟩))) (alu_keeps_v hrules op _ _ _)
  | class6Word dir rx rl => exact halu (.inr (.inr (.inl ⟨dir, rx, rl, rfl⟩))) (alu_keeps_v hrules _ _ _ _)
  | class9 op cond d a b =>
    exact halu (.inr (.inr (.inr ⟨cond, d, a, b, resolve_class9 _ op cond d a b⟩))) (condAlu_keeps_v hrules cond op _ _ _)
  | class9Word d a b => exact halu (.inr (.inr (.inr ⟨_, d, a, b, rfl⟩))) (condAlu_keeps_v hrules _ _ _ _ _)
  | flag _ _ _ hv => exact .inl hv
  | shift => exact .inl rfl
  | stb | st | ust | outPort => rw [hst rfl]; exact .inl rfl
  | _ => exact .inl (by simp)

end OfExec

/-! ### The invariant -/

section Invariant
variable {s t : State} {i : Instr}

/-- The conditions of `State.Inv` on one memory of bytes. -/
def Memory.Canonical (m : Memory) : Prop := m.wf = true ∧ ∀ e ∈ m, e.1 < 65536

theorem canonical_write {m : Memory} (h : m.Canonical) (a : Word) (b : Byte) : (m.write a.toNat b).Canonical :=
  ⟨wf_write m _ b h.1, write_bounded m _ b _ a.isLt h.2⟩

theorem inv_iff : s.Inv ↔ s.mem.Canonical ∧ s.code.Canonical ∧ s.upper.wf = true ∧
    (s.params.r0Zero = true → s.regs[0] = 0) := by
  simp only [State.Inv, Memory.Canonical, and_assoc]

/-- Every instruction keeps main memory canonical (R50). -/
theorem canonical_mem_of_exec (hm : s.mem.Canonical) (h : exec i s = .next t) : t.mem.Canonical := by
  obtain hsame | ⟨idx, reg, lo, rfl | rfl⟩ := mem_of_exec h
  · rwa [hsame]
  · obtain ⟨u, hw, hu⟩ := (andThen_next _ _ _).1 h
    obtain ⟨-, -, rfl⟩ := (memWriteByte_next _ _ _ _).1 hw
    obtain rfl := Host.Outcome.next.inj hu
    exact canonical_write hm _ _
  · obtain ⟨u, hw, hu⟩ := (andThen_next _ _ _).1 h
    obtain ⟨-, -, -, -, -, rfl⟩ := (memWriteWord_next _ _ _ _).1 hw
    obtain rfl := Host.Outcome.next.inj hu
    exact canonical_write (canonical_write hm _ _) _ _

/-- Every instruction keeps the upper banks canonical. -/
theorem wf_upper_of_exec (hu : s.upper.wf = true) (h : exec i s = .next t) : t.upper.wf = true := by
  obtain hsame | ⟨idx, reg, rfl | rfl⟩ := upper_of_exec h
  · rwa [hsame]
  · obtain rfl := Host.Outcome.next.inj h
    exact wf_write _ _ _ hu
  · obtain ⟨u, hw, hu'⟩ := (andThen_next _ _ _).1 h
    obtain ⟨-, rfl⟩ := (upperWriteWord_next _ _ _ _).1 hw
    obtain rfl := Host.Outcome.next.inj hu'
    exact wf_write _ _ _ (wf_write _ _ _ hu)

theorem inv_of_exec (hs : s.Inv) (h : exec i s = .next t) : t.Inv := by
  obtain ⟨hmem, hcode, hupper, hzero⟩ := inv_iff.1 hs
  obtain ⟨-, hparams, hsame⟩ := sameSetup_of_exec h
  refine inv_iff.2 ⟨canonical_mem_of_exec hmem h, by rwa [hsame], wf_upper_of_exec hupper h, fun hz => ?_⟩
  rw [hparams] at hz
  rw [regs_zero_of_exec hz h, hzero hz]

/-- A sample of irq touches nothing that the invariant speaks of. -/
theorem inv_pollIrq (hs : s.Inv) : s.pollIrq.Inv := hs

/-- Interrupt entry writes one register, and not where a hard-wired zero is held. -/
theorem inv_interruptEntry (hs : s.Inv) : (interruptEntry s).Inv := by
  obtain ⟨hmem, hcode, hupper, hzero⟩ := inv_iff.1 hs
  exact inv_iff.2 ⟨hmem, hcode, hupper, fun hz => (writeReg_regs_zero s _ _ hz).trans (hzero hz)⟩

theorem inv_resetWith (p : Params) : (State.resetWith p).Inv :=
  inv_iff.2 ⟨⟨rfl, nofun⟩, ⟨rfl, nofun⟩, rfl, fun _ => rfl⟩

/-- What a step can be: interrupt entry, a wait, or the instruction at pc (R320). -/
theorem step_cases (h : step s = .next t) :
    (s.interruptTaken = true ∧ t = interruptEntry s.pollIrq) ∨
    (s.interruptTaken = false ∧ s.sleeping = true ∧ t = s.pollIrq) ∨
    (s.interruptTaken = false ∧ s.sleeping = false ∧
      ∃ w, fetchWord s = .next w ∧ exec (decodeWord w) s.pollIrq = .next t) := by
  unfold step at h
  split at h
  next hint => exact .inl ⟨hint, (next_inj _ _).1 h⟩
  next hint =>
    have hint := Bool.eq_false_iff.2 hint
    split at h
    next hsl => exact .inr (.inl ⟨hint, hsl, (next_inj _ _).1 h⟩)
    next hsl => exact .inr (.inr ⟨hint, Bool.eq_false_iff.2 hsl, (andThen_next _ _ _).1 h⟩)

end Invariant

/-! ### The register file after reset -/

theorem discards_iff (s : State) (i : RegNum) : s.discards i = true ↔ s.params.r0Zero = true ∧ i = 0#7 := by
  simp [State.discards]

theorem readReg_resetWith (p : Params) (j : RegNum) : (State.resetWith p).readReg j = 0 := by
  cases hd : (State.resetWith p).discards j with
  | true => exact readReg_of_discards _ _ hd
  | false =>
    rw [readReg_of_keeps _ _ hd]
    simp [State.resetWith]

end Machine

open Machine

/-! ### The statements on every step and every instruction -/

/-- Settles O51, by the three ways a step can go on. -/
theorem stepKeepsInv : Obligations.StepKeepsInv := by
  intro s t hs hstep
  obtain ⟨-, rfl⟩ | ⟨-, -, rfl⟩ | ⟨-, -, w, -, hexec⟩ := step_cases hstep
  · exact inv_interruptEntry (inv_pollIrq hs)
  · exact inv_pollIrq hs
  · exact inv_of_exec (inv_pollIrq hs) hexec

/-- Settles O50: the memories list nothing and every register holds zero. -/
theorem resetInv : Obligations.ResetInv :=
  ⟨inv_resetWith Params.spec, inv_resetWith⟩

/-- Settles O12: the other two ways to leave the immediate register are excluded by hypothesis. -/
theorem prefixLastsOneInstruction : Obligations.PrefixLastsOneInstruction := by
  intro i s t h himm hiret
  obtain h0 | ⟨k, hk⟩ | hi := immhi_of_exec h
  · exact h0
  · exact absurd hk (himm k)
  · exact absurd hi hiret

/-- Settles O52: what is not written by the instructions named stays. -/
theorem controlStateWriters : Obligations.ControlStateWriters := by
  intro i s t h
  refine ⟨(ie_of_exec h).resolve_left, fun hne => ?_, (sleeping_of_exec h).resolve_left⟩
  refine (sameContext_of_exec h).resolve_left fun hsame => ?_
  exact hne.elim (· hsame.sImmhi) (· hsame.sFlags)

/-- Settles O53: what is not written by the instructions named stays. -/
theorem spaceWriters : Obligations.SpaceWriters := by
  intro i s t h
  refine ⟨fun ⟨a, ha⟩ => ?_, fun ⟨a, ha⟩ => ?_, (events_of_exec h).resolve_left, sameSetup_of_exec h⟩
  · exact (mem_of_exec h).resolve_left fun hsame => ha (by rw [hsame])
  · exact (upper_of_exec h).resolve_left fun hsame => ha (by rw [hsame])

/-- Settles O54, from where each instruction leaves pc. -/
theorem controlTransfers : Obligations.ControlTransfers :=
  fun _ _ _ h hpc => (pc_of_exec h).resolve_left hpc

/-- Settles O26: the register fields of the other classes have four bits. -/
theorem extendedRegistersOnlyByClassSix : Obligations.ExtendedRegistersOnlyByClassSix :=
  fun _ _ _ hlr h hclass _ hj => readReg_extended_of_exec hlr h hclass hj

/-- Settles O55, from what each instruction does to V. -/
theorem overflowFlagWriters : Obligations.OverflowFlagWriters :=
  fun _ _ _ hrules h hv => (v_of_exec hrules h).resolve_left hv

/-- Settles O48: a register either discards what is written, and then it is register 0 under R0_ZERO, or reads it. -/
theorem registerFile : Obligations.RegisterFile := by
  intro s i v
  refine ⟨fun hz => ?zero, ?latest, wroteReg_writeReg s i v⟩
  case zero =>
    have hd : s.discards 0#7 = true := (discards_iff s 0#7).2 ⟨hz, rfl⟩
    exact ⟨readReg_of_discards s 0#7 hd, writeReg_of_discards s 0#7 v hd⟩
  case latest =>
    cases hd : s.discards i with
    | true => exact .inl ((discards_iff s i).1 hd)
    | false => exact .inr (readReg_writeReg_same s i v hd)

/-- Settles O49: reset is the record of its values; that the registers read zero is the one clause about an operation. -/
theorem resetState : Obligations.ResetState :=
  ⟨rfl, rfl, rfl, rfl, rfl, rfl, rfl, rfl, rfl, rfl, fun p =>
    ⟨rfl, rfl, rfl, rfl, rfl, readReg_resetWith p, rfl, rfl, rfl, rfl, rfl, rfl⟩⟩

end Sys2Proof
end

section
/-! PROOFS (the family of 30_encoding.md). Decode and encode agree, class by class; every word is a well-formed row; and the words
that fault are those of the reserved list (R80 to R94). -/

namespace Sys2Proof

/-- Sub-classes 8 to 15 are reserved (R147). -/
theorem decodeWord_of_sub8 {w : Word} (h3 : nibble3 w = 0x0) (h2 : 8 ≤ (nibble2 w).toNat) :
    decodeWord w = .reservedSub8To15 (low11 w) := by
  rw [decodeWord_of_class0 h3]
  unfold decodeClass0
  split
  case h_9 => rfl
  all_goals omega

/-! ### The words of a row read back, by its class -/

section ReadBack
variable (n a b c : BitVec 4) (op : AluOp) (cond : Cond)

/-- A word of class 2, 3, 4 or 5 is the row that its second nibble numbers (R87, R88). -/
theorem decodeWords_class2 : decodeWords [word4 0x2 n a b] = some (Instr.class2 (AluOp.ofBits n) a b) := by
  simp [decodeWords, decodeWord_of_class2]

theorem decodeWords_class3 : decodeWords [word4 0x3 n a b] = some (Instr.class3 (AluOp.ofBits n) a b) := by
  simp [decodeWords, decodeWord_of_class3]

theorem decodeWords_class4 : decodeWords [word4 0x4 n a b] = some (Instr.branch (Cond.ofBits n) a b) := by
  simp [decodeWords, decodeWord_of_class4]

theorem decodeWords_class5 : decodeWords [word4 0x5 n a b] = some (Instr.condMove (Cond.ofBits n) a b) := by
  simp [decodeWords, decodeWord_of_class5]

/-- The canonical words of a row of class 6 are that row (R261). -/
theorem decodeWords_class6 (dir : Dir) (rx : RegNum) (rl : LowReg) :
    decodeWords [word4 0x1 0x0 0x0 n, wordExt dir.toBit rx rl] = some (Instr.class6 (AluOp.ofBits n) dir rx rl) := by
  simp [decodeWords, decodePair_of_class6]

/-- The canonical words of a row of class 9 are that row (R266). -/
theorem decodeWords_class9 :
    decodeWords [word4 0x1 0x0 cond.toBits n, word4 0x9 a b c] = some (Instr.class9 (AluOp.ofBits n) cond a b c) := by
  simp [decodeWords, decodePair_of_class9]

end ReadBack

/-- Settles O58: the sixteen rows of a class are one lemma about its number; the other rows have a word each. -/
theorem decodeEncode : Obligations.DecodeEncode := by
  intro i hi
  cases i with
  | movRR d r | addRR d r | adcRR d r | subRR d r | sbbRR d r | andRR d r | orRR d r | xorRR d r | mulRR d r | muluRR d r
  | rrnRR d r | rlnRR d r | cmpRR d r | testRR d r | umuluRR d r | bswapRR d r => exact decodeWords_class2 _ d r
  | movRI d lo | addRI d lo | adcRI d lo | subRI d lo | sbbRI d lo | andRI d lo | orRI d lo | xorRI d lo | mulRI d lo
  | muluRI d lo | reservedClass3Op10 d lo | reservedClass3Op11 d lo | cmpRI d lo | testRI d lo | umuluRI d lo
  | reservedClass3Op15 d lo => exact decodeWords_class3 _ d lo
  | bz r lo | bnz r lo | bs r lo | bns r lo | bc r lo | bnc r lo | bv r lo | bnv r lo | blt r lo | ble r lo | bgt r lo
  | bge r lo | bleu r lo | bgtu r lo | ba r lo | bl r lo => exact decodeWords_class4 _ r lo
  | movZ d r | movNz d r | movS d r | movNs d r | movC d r | movNc d r | movV d r | movNv d r | movLt d r | movLe d r
  | movGt d r | movGe d r | movLeu d r | movGtu d r | movA d r | movL d r => exact decodeWords_class5 _ d r
  | movCc cond d r =>
    have h := decodeWords_class5 cond.toBits d r
    rwa [Cond.ofBits_toBits] at h
  | class6Word dir rx rl => exact congrArg some (decodeWord_wordExt dir rx rl)
  | movX dir rx rl | addX dir rx rl | adcX dir rx rl | subX dir rx rl | sbbX dir rx rl | andX dir rx rl | orX dir rx rl
  | xorX dir rx rl | mulX dir rx rl | muluX dir rx rl | rrnX dir rx rl | rlnX dir rx rl | cmpX dir rx rl
  | testX dir rx rl | umuluX dir rx rl | bswapX dir rx rl => exact decodeWords_class6 _ dir rx rl
  | movT k d a b | addT k d a b | adcT k d a b | subT k d a b | sbbT k d a b | andT k d a b | orT k d a b | xorT k d a b
  | mulT k d a b | muluT k d a b | rrnT k d a b | rlnT k d a b | cmpT k d a b | testT k d a b | umuluT k d a b
  | bswapT k d a b => exact decodeWords_class9 _ d a b k
  | uld | uldb | uldbsx | ust | reservedClass7Flg5 | ustb =>
    simp [encode, decodeWords, Instr.canonical, decodeWord_of_class7, decodeClass7]
  | asr | lsr | lsl | rolc | rorc | rol | ror | cc | sc | cz | sz | cs | ss | stf | rsf | reservedAlu31 =>
    simp [encode, decodeWords, Instr.canonical, decodeWord_of_sub4, decodeClass0Sub4]
  | reservedSub8To15 k =>
    have h := decodeWord_of_sub8 (nibble3_sub8 k) (nibble2_sub8 k)
    rw [low11_sub8] at h
    exact congrArg some h
  | reservedNopNonzero b | reservedRetNonzero b =>
    simp_all [encode, decodeWords, Instr.canonical, Instr.wellFormed, decodeWord_of_class0, decodeClass0]
  | _ => simp [encode, decodeWords, Instr.canonical, decodeWord, decodeClass0]

/-! ### Every word is a row -/

/-- A term that the decoder can answer with: well formed, and not MOV.cc of class 5, whose words are its sixteen rows. -/
def Instr.IsRow (i : Instr) : Prop := i.wellFormed = true ∧ i.canonical = i

theorem isRow_decodeClass0 (w : Word) : (decodeClass0 w).IsRow := by
  unfold decodeClass0 decodeClass0Sub4
  split
  case h_1 =>
    split
    · exact ⟨rfl, rfl⟩
    next h0 => exact ⟨by simpa [Instr.wellFormed] using h0, rfl⟩
  case h_2 =>
    split
    · exact ⟨rfl, rfl⟩
    next h0 =>
      split
      · exact ⟨rfl, rfl⟩
      next h1 => exact ⟨by simp_all [Instr.wellFormed], rfl⟩
  case h_5 => split <;> exact ⟨rfl, rfl⟩
  case h_7 => split <;> exact ⟨rfl, rfl⟩
  all_goals exact ⟨rfl, rfl⟩

/-- Every word is a row of the table (R84). -/
theorem isRow_decodeWord (w : Word) : (decodeWord w).IsRow := by
  unfold decodeWord
  split
  case h_1 => exact isRow_decodeClass0 w
  case h_3 | h_4 => cases AluOp.ofBits (nibble2 w) <;> exact ⟨rfl, rfl⟩
  case h_5 | h_6 => cases Cond.ofBits (nibble2 w) <;> exact ⟨rfl, rfl⟩
  case h_8 =>
    unfold decodeClass7
    split <;> exact ⟨rfl, rfl⟩
  all_goals exact ⟨rfl, rfl⟩

/-- Settles O57: a word is a row of the table, and a row is read again from its encoding (O58). -/
theorem everyWordDecodes : Obligations.EveryWordDecodes := by
  intro w
  obtain ⟨hwf, hcanonical⟩ := isRow_decodeWord w
  have h := decodeEncode (decodeWord w) hwf
  rw [hcanonical] at h
  exact ⟨hwf, h⟩

/-- Settles O59, by running the decoder. -/
theorem sampleDecodings : Obligations.SampleDecodings := by
  unfold Obligations.SampleDecodings
  decide

/-! ### The reserved rows -/

/-- The nine reserved rows of the table (R94). -/
def Instr.isReserved (i : Instr) : Bool :=
  match i with
  | .reservedAlu31 .. | .reservedSub5 .. | .reservedSub8To15 .. | .reservedNopNonzero .. | .reservedRetNonzero ..
  | .reservedClass3Op10 .. | .reservedClass3Op11 .. | .reservedClass3Op15 .. | .reservedClass7Flg5 .. => true
  | _ => false

namespace Machine

theorem exec_of_isReserved {i : Instr} (hi : i.isReserved = true) (s : State) : exec i s = .fault .reservedEncoding := by
  cases i with
  | reservedAlu31 | reservedSub5 | reservedSub8To15 | reservedNopNonzero | reservedRetNonzero | reservedClass3Op10
  | reservedClass3Op11 | reservedClass3Op15 | reservedClass7Flg5 => rfl
  | _ => exact nomatch hi

theorem next_ne_reserved {α : Type} (a : α) : (.next a : Res α) ≠ .fault .reservedEncoding := nofun

theorem andThen_ne_reserved {α β : Type} {r : Res α} {f : α → Res β} (hr : r ≠ .fault .reservedEncoding)
    (hf : ∀ a, f a ≠ .fault .reservedEncoding) : andThen r f ≠ .fault .reservedEncoding := by
  cases r with
  | next a => exact hf a
  | fault e => simpa [andThen] using hr
  | refused e => nofun

theorem memReadByte_ne_reserved (s : State) (a : Word) : memReadByte s a ≠ .fault .reservedEncoding := by
  unfold memReadByte
  split <;> nofun

theorem memReadWord_ne_reserved (s : State) (a : Word) : memReadWord s a ≠ .fault .reservedEncoding := by
  unfold memReadWord
  split
  · nofun
  · exact andThen_ne_reserved (memReadByte_ne_reserved _ _) fun _ => andThen_ne_reserved (memReadByte_ne_reserved _ _) nofun

theorem storeAllowed_ne_reserved (s : State) (a : Word) : storeAllowed s a ≠ .fault .reservedEncoding := by
  unfold storeAllowed
  split
  · nofun
  · split <;> nofun

theorem memWriteByte_ne_reserved (s : State) (a : Word) (b : Byte) : memWriteByte s a b ≠ .fault .reservedEncoding :=
  andThen_ne_reserved (storeAllowed_ne_reserved _ _) nofun

theorem memWriteWord_ne_reserved (s : State) (a v : Word) : memWriteWord s a v ≠ .fault .reservedEncoding := by
  unfold memWriteWord
  split
  · nofun
  · exact andThen_ne_reserved (storeAllowed_ne_reserved _ _) fun _ => andThen_ne_reserved (storeAllowed_ne_reserved _ _) nofun

theorem upperReadWord_ne_reserved (s : State) (a : Word) : upperReadWord s a ≠ .fault .reservedEncoding := by
  unfold upperReadWord
  split <;> nofun

theorem upperWriteWord_ne_reserved (s : State) (a v : Word) : upperWriteWord s a v ≠ .fault .reservedEncoding := by
  unfold upperWriteWord
  split <;> nofun

theorem portRead_ne_reserved (s : State) (p : Word) : portRead s p ≠ .fault .reservedEncoding := by
  unfold portRead
  split <;> nofun

theorem portWrite_ne_reserved (s : State) (p v : Word) : portWrite s p v ≠ .fault .reservedEncoding := by
  unfold portWrite
  split <;> nofun

/-- An instruction faults as reserved exactly where it is a reserved row: the others go on, or stop at an access. -/
theorem exec_reserved_iff (i : Instr) (s : State) : exec i s = .fault .reservedEncoding ↔ i.isReserved = true := by
  refine ⟨fun h => ?_, fun hi => exec_of_isReserved hi s⟩
  cases i with
  | reservedAlu31 | reservedSub5 | reservedSub8To15 | reservedNopNonzero | reservedRetNonzero | reservedClass3Op10
  | reservedClass3Op11 | reservedClass3Op15 | reservedClass7Flg5 => rfl
  | ldb | ldbsx => exact absurd h (andThen_ne_reserved (memReadByte_ne_reserved _ _) fun _ => next_ne_reserved _)
  | ld => exact absurd h (andThen_ne_reserved (memReadWord_ne_reserved _ _) fun _ => next_ne_reserved _)
  | stb => exact absurd h (andThen_ne_reserved (memWriteByte_ne_reserved _ _ _) fun _ => next_ne_reserved _)
  | st => exact absurd h (andThen_ne_reserved (memWriteWord_ne_reserved _ _ _) fun _ => next_ne_reserved _)
  | uld => exact absurd h (andThen_ne_reserved (upperReadWord_ne_reserved _ _) fun _ => next_ne_reserved _)
  | ust => exact absurd h (andThen_ne_reserved (upperWriteWord_ne_reserved _ _ _) fun _ => next_ne_reserved _)
  | inPort => exact absurd h (andThen_ne_reserved (portRead_ne_reserved _ _) fun _ => next_ne_reserved _)
  | outPort => exact absurd h (andThen_ne_reserved (portWrite_ne_reserved _ _ _) fun _ => next_ne_reserved _)
  | class6Word dir rx rl => rw [exec_class6Word, exec_class6] at h; exact nomatch h
  | class9Word d a b => rw [exec_class9Word, exec_class9] at h; exact nomatch h
  | movCc cond d r => rw [exec_movCc] at h; exact nomatch h
  | _ => exact nomatch h

end Machine

/-! ### The words of the reserved rows -/

/-- The fields of a word as parts of its number. -/
theorem fields_toNat (w : Word) :
    (nibble3 w).toNat = w.toNat / 4096 ∧ (nibble2 w).toNat = w.toNat / 256 % 16 ∧ (nibble1 w).toNat = w.toNat / 16 % 16 ∧
      (low8 w).toNat = w.toNat % 256 ∧ (w.extractLsb' 0 3).toNat = w.toNat % 8 := by
  have := w.isLt
  refine ⟨?_, ?_, ?_, ?_, ?_⟩ <;>
    simp only [nibble3, nibble2, nibble1, low8, BitVec.extractLsb'_toNat, Nat.shiftRight_eq_div_pow] <;> omega

/-- Operation 31 is the reserved one of sub-class 4 (R142). -/
theorem isReserved_decodeClass0Sub4 (w : Word) : (decodeClass0Sub4 w).isReserved = true ↔ 15 ≤ (nibble1 w).toNat := by
  unfold decodeClass0Sub4
  split
  case h_16 => simp only [imp_false, Instr.isReserved, true_iff] at *; omega
  all_goals
    simp only [Instr.isReserved, Bool.false_eq_true, false_iff]
    omega

/-- The reserved words of class 0 (R94, R142, R143, R147). -/
theorem isReserved_decodeClass0 {w : Word} (h : (nibble3 w).toNat = 0) :
    (decodeClass0 w).isReserved = true ↔
      (0x0001 ≤ w.toNat ∧ w.toNat ≤ 0x00FF) ∨ (0x0102 ≤ w.toNat ∧ w.toNat ≤ 0x01FF) ∨
      (0x04F0 ≤ w.toNat ∧ w.toNat ≤ 0x05FF) ∨ (0x0800 ≤ w.toNat ∧ w.toNat ≤ 0x0FFF) := by
  obtain ⟨h3, h2, h1, h8, -⟩ := fields_toNat w
  have hlow (b : BitVec 8) : low8 w = b ↔ w.toNat % 256 = b.toNat := by rw [← BitVec.toNat_inj, h8]
  have hlow0 : low8 w = 0x00 ↔ w.toNat % 256 = 0 := hlow 0x00
  have hlow1 : low8 w = 0x01 ↔ w.toNat % 256 = 1 := hlow 0x01
  unfold decodeClass0
  simp only [beq_iff_eq, hlow0, hlow1]
  split
  case h_1 => split <;> simp only [Instr.isReserved, Bool.false_eq_true, false_iff, true_iff] <;> omega
  case h_2 =>
    split
    · simp only [Instr.isReserved, Bool.false_eq_true, false_iff]; omega
    · split <;> simp only [Instr.isReserved, Bool.false_eq_true, false_iff, true_iff] <;> omega
  case h_5 => rw [isReserved_decodeClass0Sub4]; omega
  case h_7 => split <;> simp only [Instr.isReserved, Bool.false_eq_true, false_iff] <;> omega
  all_goals
    simp only [imp_false, Instr.isReserved, Bool.false_eq_true, false_iff, true_iff] at *
    omega

theorem isReserved_class2 (op : AluOp) (d r : LowReg) : (Instr.class2 op d r).isReserved = false := by
  cases op <;> rfl

theorem isReserved_branch (cond : Cond) (r : LowReg) (lo : Imm4) : (Instr.branch cond r lo).isReserved = false := by
  cases cond <;> rfl

theorem isReserved_condMove (cond : Cond) (d r : LowReg) : (Instr.condMove cond d r).isReserved = false := by
  cases cond <;> rfl

/-- The reserved operations of class 3 are 10, 11 and 15 (R218). -/
theorem isReserved_class3 (op : AluOp) (d : LowReg) (lo : Imm4) :
    (Instr.class3 op d lo).isReserved = true ↔ op.toBits.toNat ∈ [10, 11, 15] := by
  cases op <;> simp [Instr.class3, Instr.isReserved, AluOp.toBits]

/-- A word put together from its four nibbles. -/
theorem word4_nibbles (w : Word) : word4 (nibble3 w) (nibble2 w) (nibble1 w) (nibble0 w) = w := by
  have h32 : nibble3 w ++ nibble2 w = w.extractLsb' 8 8 := BitVec.extractLsb'_append_extractLsb'_eq_extractLsb' rfl
  have h321 : w.extractLsb' 8 8 ++ nibble1 w = w.extractLsb' 4 12 := BitVec.extractLsb'_append_extractLsb'_eq_extractLsb' rfl
  have hw : w.extractLsb' 4 12 ++ nibble0 w = w.extractLsb' 0 16 := BitVec.extractLsb'_append_extractLsb'_eq_extractLsb' rfl
  rw [word4, h32, h321, hw, extract_all]

/-- Two words are equal where their nibbles are. -/
theorem word_eq_iff_nibbles (w v : Word) :
    w = v ↔ nibble3 w = nibble3 v ∧ nibble2 w = nibble2 v ∧ nibble1 w = nibble1 v ∧ nibble0 w = nibble0 v := by
  refine ⟨by rintro rfl; exact ⟨rfl, rfl, rfl, rfl⟩, fun ⟨h3, h2, h1, h0⟩ => ?_⟩
  rw [← word4_nibbles w, ← word4_nibbles v, h3, h2, h1, h0]

/-- The mask of R94 for class 7 leaves the class and FLG. -/
theorem class7Flg5_iff (w : Word) : w &&& 0xF007#16 = 0x7005#16 ↔ w.toNat / 4096 = 7 ∧ w.toNat % 8 = 5 := by
  have hclass : nibble3 w &&& 0xF = 0x7 ↔ (nibble3 w).toNat = 7 := by
    generalize nibble3 w = a
    revert a
    decide
  have hflg : nibble0 w &&& 0x7 = 0x5 ↔ (nibble0 w).toNat % 8 = 5 := by
    generalize nibble0 w = d
    revert d
    decide
  have h0 : (nibble0 w).toNat = w.toNat % 16 := by simp [nibble0]
  calc w &&& 0xF007#16 = 0x7005#16
      ↔ nibble3 w &&& 0xF = 0x7 ∧ nibble0 w &&& 0x7 = 0x5 := by
        rw [word_eq_iff_nibbles]
        simp [nibble3, nibble2, nibble1, nibble0, BitVec.extractLsb'_and]
    _ ↔ w.toNat / 4096 = 7 ∧ w.toNat % 8 = 5 := by rw [hclass, hflg, (fields_toNat w).1, h0]; omega

/-- The reserved words, by number (R94). -/
theorem isReserved_decodeWord (w : Word) :
    (decodeWord w).isReserved = true ↔
      (0x0001 ≤ w.toNat ∧ w.toNat ≤ 0x00FF) ∨ (0x0102 ≤ w.toNat ∧ w.toNat ≤ 0x01FF) ∨
      (0x04F0 ≤ w.toNat ∧ w.toNat ≤ 0x05FF) ∨ (0x0800 ≤ w.toNat ∧ w.toNat ≤ 0x0FFF) ∨
      (0x3A00 ≤ w.toNat ∧ w.toNat ≤ 0x3BFF) ∨ (0x3F00 ≤ w.toNat ∧ w.toNat ≤ 0x3FFF) ∨
      (w.toNat / 4096 = 7 ∧ w.toNat % 8 = 5) := by
  obtain ⟨h3, h2, h1, h8, hflg⟩ := fields_toNat w
  unfold decodeWord
  split
  case h_1 h => rw [isReserved_decodeClass0 h]; omega
  case h_4 h =>
    have hop : (AluOp.ofBits (nibble2 w)).toBits.toNat = (nibble2 w).toNat := by rw [AluOp.toBits_ofBits]
    simp only [isReserved_class3, hop, List.mem_cons, List.not_mem_nil, or_false]
    omega
  case h_8 =>
    unfold decodeClass7
    split <;> simp only [imp_false, Instr.isReserved, Bool.false_eq_true, false_iff, true_iff] at * <;> omega
  case h_3 | h_5 | h_6 =>
    simp only [isReserved_class2, isReserved_branch, isReserved_condMove, Bool.false_eq_true, false_iff]
    omega
  all_goals
    simp only [imp_false, Instr.isReserved, Bool.false_eq_true, false_iff] at *
    omega

open Machine

/-- Settles O43: an instruction faults as reserved where it is a reserved row, and those rows have the words of the list. -/
theorem reservedWords : Obligations.ReservedWords := by
  intro w s
  rw [exec_reserved_iff, isReserved_decodeWord, class7Flg5_iff]

/-- Settles O42: each of the nine is a reserved row. -/
theorem reservedRowsFault : Obligations.ReservedRowsFault :=
  fun s _ _ _ _ => ⟨exec_of_isReserved rfl s, exec_of_isReserved rfl s, exec_of_isReserved rfl s, exec_of_isReserved rfl s,
    exec_of_isReserved rfl s, exec_of_isReserved rfl s, exec_of_isReserved rfl s, exec_of_isReserved rfl s,
    exec_of_isReserved rfl s⟩

end Sys2Proof
end

section
/-! PROOFS (the families of 40_class0_general.md and 41_class1_immediate_prefix.md). The rest of class 0: returns, shifts and
rotates, the flags through a register, the interrupt enable and SLEEP (R122, R123, R126 to R133, R140, R141, R144 to R146); and
IMM (R160, R161). -/

namespace Sys2Proof

/-! ### Class 0 words -/

/-- Sub-class 6 is STI or CLI by its lowest bit (R144, R145). -/
theorem decodeWord_of_sub6 {w : Word} (h3 : nibble3 w = 0x0) (h2 : nibble2 w = 0x6) :
    decodeWord w = if w.getLsbD 0 then .sti else .cli := by
  simp [decodeWord_of_class0 h3, decodeClass0, h2, low8]

theorem decodeWord_of_sub7 {w : Word} (h3 : nibble3 w = 0x0) (h2 : nibble2 w = 0x7) : decodeWord w = .sleep := by
  simp [decodeWord_of_class0 h3, decodeClass0, h2]

/-- Bits 7:1 of CLI and STI are ignored (R93). -/
theorem decodeWord_sub6 (x : BitVec 7) (b : BitVec 1) :
    decodeWord (0x06#8 ++ x ++ b) = if b.getLsbD 0 then .sti else .cli := by
  have h3 : nibble3 (0x06#8 ++ x ++ b) = 0x0 := by
    rw [nibble3, extract_append_up _ _ _ _ (by omega), extract_append_up _ _ _ _ (by omega)]
    rfl
  have h2 : nibble2 (0x06#8 ++ x ++ b) = 0x6 := by
    rw [nibble2, extract_append_up _ _ _ _ (by omega), extract_append_up _ _ _ _ (by omega)]
    rfl
  rw [decodeWord_of_sub6 h3 h2, bit_append_low _ _ _ (by omega)]

/-- The low byte of SLEEP is ignored (R93). -/
theorem decodeWord_sub7 (x : BitVec 8) : decodeWord (0x07#8 ++ x) = .sleep :=
  decodeWord_of_sub7 (nibble3_word8 0x07 x) (nibble2_word8 0x07 x)

namespace Machine

/-! ### Transfers of control -/

theorem exec_ret (s : State) : exec .ret s = .next (s.jump (s.readReg s.params.lrIndex)) := rfl

theorem exec_bl (r : LowReg) (lo : Imm4) (s : State) : exec (.bl r lo) s = .next (s.branchLink (branchTarget s r lo)) := rfl

theorem exec_iret (s : State) : exec .iret s = .next (interruptReturn s) := rfl

theorem sameRest_jump (s : State) (target : Word) : s.SameRest (s.jump target) := by
  apply sameRest_of_eq <;> rfl

theorem sameRest_branchLink (s : State) (target : Word) : s.SameRest (s.branchLink target) := by
  apply sameRest_of_eq <;> rfl

/-- The return from an interrupt changes no space, no input and no shadow register. -/
theorem frame_interruptReturn (s : State) :
    (interruptReturn s).sleeping = s.sleeping ∧ s.SameRegs (interruptReturn s) ∧ s.SameContext (interruptReturn s) ∧
      s.SameMem (interruptReturn s) ∧ s.SameUpper (interruptReturn s) ∧ s.SamePorts (interruptReturn s) ∧
      s.SameInputs (interruptReturn s) :=
  ⟨rfl, fun _ => rfl, ⟨rfl, rfl⟩, fun _ => rfl, fun _ => rfl, ⟨rfl, rfl, rfl⟩, ⟨rfl, rfl, ⟨rfl, rfl, rfl⟩⟩⟩

/-! ### The flags as bits of a register -/

theorem exec_stf (r : LowReg) (s : State) : exec (.stf r) s = .next (s.writeReg (low r) (0#12 ++ s.flags.pack)).advance := rfl

theorem exec_rsf (r : LowReg) (s : State) :
    exec (.rsf r) s = .next (s.setFlags (Flags.unpack ((s.readReg (low r)).extractLsb' 0 4))).advance := rfl

/-- The flags above twelve zeros, as a number: bits 3 to 0 in the order Z, C, S, V (R28). -/
theorem toNat_zero_append_pack (f : Flags) :
    (0#12 ++ f.pack).toNat = 8 * f.z.toNat + 4 * f.c.toNat + 2 * f.s.toNat + f.v.toNat := by
  obtain ⟨z, c, s, v⟩ := f
  revert z c s v
  decide

/-- The flags that the lowest four bits of a word stand for (R28). -/
theorem unpack_low4 (w : Word) :
    Flags.unpack (w.extractLsb' 0 4) =
      { z := w.getLsbD 3, c := w.getLsbD 2, s := w.getLsbD 1, v := w.getLsbD 0 } := by
  simp [Flags.unpack]

/-! ### The seven shifts and rotates -/

section Shifts
variable (a : Word) (c : Bool)

theorem shiftResult_asr : shiftResult .asr a c = a.sshiftRight 1 := by
  apply BitVec.eq_of_getLsbD_eq
  intro i hi
  simp only [shiftResult, BitVec.getLsbD_append, BitVec.getLsbD_extractLsb', BitVec.getLsbD_sshiftRight,
    BitVec.getLsbD_ofBool]
  by_cases h : i < 15
  · simp [h, Nat.add_comm, show ¬ 16 ≤ i by omega]
  · obtain rfl : i = 15 := by omega
    simp [BitVec.msb_eq_getLsbD_last]

theorem shiftResult_lsr : shiftResult .lsr a c = a >>> 1 := by
  apply BitVec.eq_of_toNat_eq
  have := a.isLt
  simp only [shiftResult, toNat_append_add, BitVec.extractLsb'_toNat, BitVec.toNat_ushiftRight,
    Nat.shiftRight_eq_div_pow, BitVec.toNat_ofNat]
  omega

theorem shiftResult_lsl : shiftResult .lsl a c = a <<< 1 := by
  apply BitVec.eq_of_toNat_eq
  have := a.isLt
  simp only [shiftResult, toNat_append_add, BitVec.extractLsb'_toNat, BitVec.toNat_shiftLeft,
    Nat.shiftLeft_eq, Nat.shiftRight_eq_div_pow, BitVec.toNat_ofNat]
  omega

theorem shiftResult_rol : shiftResult .rol a c = a.rotateLeft 1 := by
  apply BitVec.eq_of_getLsbD_eq
  intro i hi
  simp only [shiftResult, BitVec.getLsbD_append, BitVec.getLsbD_extractLsb', BitVec.getLsbD_rotateLeft,
    BitVec.getLsbD_ofBool]
  by_cases h : i = 0
  · subst h; simp [BitVec.msb_eq_getLsbD_last]
  · simp [hi, show ¬ i < 1 by omega, show i - 1 < 15 by omega]

theorem shiftResult_ror : shiftResult .ror a c = a.rotateRight 1 := by
  apply BitVec.eq_of_getLsbD_eq
  intro i hi
  simp only [shiftResult, BitVec.getLsbD_append, BitVec.getLsbD_extractLsb', BitVec.getLsbD_rotateRight,
    BitVec.getLsbD_ofBool]
  by_cases h : i < 15
  · simp [h, Nat.add_comm]
  · obtain rfl : i = 15 := by omega
    simp

/-- Through carry to the left: the 17 bits of C and the register, doubled (R130). -/
theorem shiftResult_rolc_toNat : (shiftResult .rolc a c).toNat = (2 * a.toNat + c.toNat) % 65536 := by
  have := a.isLt
  have := c.toNat_lt
  simp only [shiftResult, toNat_append_add, BitVec.extractLsb'_toNat, BitVec.toNat_ofBool, Nat.shiftRight_eq_div_pow]
  omega

/-- Through carry to the right: the 17 bits of C and the register, halved (R131). -/
theorem shiftResult_rorc_toNat : (shiftResult .rorc a c).toNat = (65536 * c.toNat + a.toNat) / 2 := by
  have := a.isLt
  simp only [shiftResult, toNat_append_add, BitVec.extractLsb'_toNat, BitVec.toNat_ofBool, Nat.shiftRight_eq_div_pow]
  omega

end Shifts

/-- An instruction that is a shift or rotate completes, with the result and the bit out in whatever form they are given. -/
theorem shift_done {i : Instr} {s : State} {op : ShiftOp} {r : RegNum} {v : Word} {out : Bool}
    (hexec : exec i s = .next (applyShift s op r)) (hv : shiftResult op (s.readReg r) s.flags.c = v)
    (hout : shiftOut op (s.readReg r) = out) : ∃ t, exec i s = .next t ∧ s.ShiftDone t r v out := by
  subst hv hout
  exact ⟨_, hexec, shiftDone_applyShift s op r⟩

/-! ### The interrupt enable and the sleep state -/

theorem exec_cli (s : State) : exec .cli s = .next (s.setIe false).advance := rfl

theorem exec_sti (s : State) : exec .sti s = .next (s.setIe true).advance := rfl

theorem exec_sleep (s : State) : exec .sleep s = .next s.enterSleep.advance := rfl

/-- A write of IE that ends its instruction changes nothing else. -/
theorem frame_setIe (s : State) (b : Bool) :
    (s.setIe b).advance.sleeping = s.sleeping ∧ (s.setIe b).advance.flags = s.flags ∧ s.SameRegs (s.setIe b).advance ∧
      s.MovesOn (s.setIe b).advance ∧ s.SameContext (s.setIe b).advance ∧ s.SameMem (s.setIe b).advance ∧
      s.SameUpper (s.setIe b).advance ∧ s.SamePorts (s.setIe b).advance ∧ s.SameInputs (s.setIe b).advance :=
  ⟨rfl, rfl, fun _ => rfl, ⟨rfl, rfl⟩, ⟨rfl, rfl⟩, fun _ => rfl, fun _ => rfl, ⟨rfl, rfl, rfl⟩,
    ⟨rfl, rfl, ⟨rfl, rfl, rfl⟩⟩⟩

/-- SLEEP changes nothing but the sleep state. -/
theorem frame_enterSleep (s : State) :
    s.enterSleep.advance.ie = s.ie ∧ s.enterSleep.advance.flags = s.flags ∧ s.SameRegs s.enterSleep.advance ∧
      s.MovesOn s.enterSleep.advance ∧ s.SameContext s.enterSleep.advance ∧ s.SameMem s.enterSleep.advance ∧
      s.SameUpper s.enterSleep.advance ∧ s.SamePorts s.enterSleep.advance ∧ s.SameInputs s.enterSleep.advance :=
  ⟨rfl, rfl, fun _ => rfl, ⟨rfl, rfl⟩, ⟨rfl, rfl⟩, fun _ => rfl, fun _ => rfl, ⟨rfl, rfl, rfl⟩,
    ⟨rfl, rfl, ⟨rfl, rfl, rfl⟩⟩⟩

/-- With IE set and irq up the step is interrupt entry, on the state whose sample is taken (R320). -/
theorem step_of_interrupt {s : State} (hie : s.ie = true) (hirq : s.irqLevel = true) :
    step s = .next (interruptEntry s.pollIrq) := by
  simp [step, State.interruptTaken, hie, hirq]

/-- A sample of irq is not seen in the registers, so entry after it saves the pc of before (R325). -/
theorem wroteReg_interruptEntry_pollIrq (s : State) : s.WroteReg (interruptEntry s.pollIrq) s.params.ilrIndex s.pc :=
  wroteReg_interruptEntry s.pollIrq

end Machine

open Machine

/-! ### The statements -/

/-- Settles O2: RET goes where LR points, and BL leaves the address after itself there. -/
theorem returnThroughLink : Obligations.ReturnThroughLink := by
  unfold Obligations.ReturnThroughLink
  refine ⟨rfl, fun s => ?ret, fun r lo s => ?bl⟩
  case ret => exact ⟨_, exec_ret s, rfl, rfl, rfl, fun _ => rfl, sameRest_jump s _⟩
  case bl =>
    refine ⟨_, exec_bl r lo s, rfl, wroteReg_branchLink s _, rfl, rfl, sameRest_branchLink s _, fun hkeeps u _ hlr => ?_⟩
    refine ⟨_, exec_ret u, ?_⟩
    rw [jump_pc, hlr, branchLink_params, wroteReg_branchLink s _ s.params.lrIndex, if_pos ⟨rfl, hkeeps⟩]

/-- Settles O3: the return is a record of what it restores. -/
theorem interruptReturn_restores : Obligations.InterruptReturn :=
  ⟨rfl, fun s => ⟨_, exec_iret s, rfl, rfl, rfl, rfl, frame_interruptReturn s⟩⟩

/-- Settles O7: STF moves the packed flags, RSF unpacks the lowest four bits, and the one undoes the other. -/
theorem flagsThroughRegister : Obligations.FlagsThroughRegister := by
  unfold Obligations.FlagsThroughRegister
  refine ⟨fun r s => ?stf, fun r s => ?rsf, fun r s t hkeeps hstf u hu => ?back⟩
  case stf => exact ⟨_, _, exec_stf r s, moveDone_writeReg s (low r) _, toNat_zero_append_pack s.flags⟩
  case rsf => exact ⟨_, exec_rsf r s, unpack_low4 _, frame_setFlags s _⟩
  case back =>
    obtain rfl := (next_inj _ _).1 hstf
    refine ⟨_, exec_rsf r u, ?_⟩
    rw [advance_flags, setFlags_flags, hu, readReg_advance, readReg_writeReg_same _ _ _ hkeeps,
      extract_append_low _ _ _ _ (by omega), extract_all, unpack_pack]

/-- Settles O8: each is its one-bit shift, whose result and bit out are those of the statement. -/
theorem shiftsAndRotates : Obligations.ShiftsAndRotates := by
  unfold Obligations.ShiftsAndRotates
  refine ⟨rfl, fun r s a ha => ?_⟩
  subst ha
  refine ⟨shift_done rfl (shiftResult_asr _ _) rfl, shift_done rfl (shiftResult_lsr _ _) rfl,
    shift_done rfl (shiftResult_lsl _ _) rfl, ⟨_, _, rfl, shiftDone_applyShift s .rolc (low r), shiftResult_rolc_toNat _ _⟩,
    ⟨_, _, rfl, shiftDone_applyShift s .rorc (low r), shiftResult_rorc_toNat _ _⟩,
    shift_done rfl (shiftResult_rol _ _) rfl, shift_done rfl (shiftResult_ror _ _) rfl⟩

/-- Settles O9: CLI and STI write IE, and with IE set and irq up the next step is the entry. -/
theorem interruptEnable : Obligations.InterruptEnable := by
  unfold Obligations.InterruptEnable
  refine ⟨fun x => ⟨decodeWord_sub6 x 0#1, decodeWord_sub6 x 1#1⟩, fun s p hp => ?write, fun s t hsti hirq => ?entry⟩
  case write =>
    simp only [List.mem_cons, List.not_mem_nil, or_false] at hp
    obtain rfl | rfl := hp
    · exact ⟨_, exec_cli s, rfl, frame_setIe s false⟩
    · exact ⟨_, exec_sti s, rfl, frame_setIe s true⟩
  case entry =>
    obtain rfl := (next_inj _ _).1 hsti
    exact ⟨_, step_of_interrupt rfl hirq, wroteReg_interruptEntry_pollIrq _, rfl, rfl⟩

/-- Settles O10: SLEEP is a write of the sleep state alone. -/
theorem sleepEnters : Obligations.SleepEnters :=
  ⟨decodeWord_sub7, fun s => ⟨_, exec_sleep s, rfl, frame_enterSleep s⟩⟩

/-- Settles O11: after two IMM the immediate register holds the second, and a class 3 MOV reads it above its own four bits. -/
theorem immLoadsPrefix : Obligations.ImmLoadsPrefix := by
  unfold Obligations.ImmLoadsPrefix
  refine ⟨fun h s => ?load, fun h h' d lo s => ?twice⟩
  case load => exact ⟨_, exec_imm h s, rfl, rfl, rfl, fun _ => rfl, by apply sameRest_of_eq <;> rfl⟩
  case twice =>
    have hmov := aluDone_applyAlu ((s.setPrefix h).setPrefix h') .mov (low d) (s.readReg (low d)) (h' ++ lo)
    exact ⟨_, _, _, exec_imm h s, exec_imm h' _, rfl, rfl, hmov.reg rfl, hmov.moves.immhi⟩

end Sys2Proof
end

section
/-! PROOFS (the family of 42_class2_3_alu.md). What the sixteen ALU operations give and which flags they write (R170 to R186);
from that the instructions of classes 2 and 3 (R187, R204) and the orderings that a comparison sets up (R183, R230). -/

namespace Sys2Proof

/-! ### The words of classes 2 and 3 -/

theorem decodeWord_class2 (op : AluOp) (d r : LowReg) :
    decodeWord (0x2#4 ++ op.toBits ++ d ++ r) = Instr.class2 op d r := by
  have h := decodeWord_of_class2 (nibble3_word4 0x2 op.toBits d r)
  rw [nibble2_word4, nibble1_word4, nibble0_word4, AluOp.ofBits_toBits] at h
  exact h

theorem decodeWord_class3 (op : AluOp) (d : LowReg) (lo : Imm4) :
    decodeWord (0x3#4 ++ op.toBits ++ d ++ lo) = Instr.class3 op d lo := by
  have h := decodeWord_of_class3 (nibble3_word4 0x3 op.toBits d lo)
  rw [nibble2_word4, nibble1_word4, nibble0_word4, AluOp.ofBits_toBits] at h
  exact h

namespace Machine

/-! ### Results -/

section Results
variable (p : Params) (a b : Word) (f : Flags)

theorem alu_add_result : (alu p .add a b f).result = a + b := by
  apply BitVec.eq_of_toNat_eq
  rw [BitVec.toNat_add]
  rfl

theorem alu_adc_result_toNat : (alu p .adc a b f).result.toNat = (a.toNat + b.toNat + f.c.toNat) % 65536 := rfl

theorem alu_sub_result : (alu p .sub a b f).result = a - b := by
  apply BitVec.eq_of_toNat_eq
  have := a.isLt
  have := b.isLt
  simp only [alu, aluResult, BitVec.toNat_ofInt, BitVec.toNat_sub]
  omega

theorem alu_sbb_result_toNat :
    (alu p .sbb a b f).result.toNat = (a.toNat + 2 * 65536 - b.toNat - f.c.toNat) % 65536 := by
  have := a.isLt
  have := b.isLt
  have := f.c.toNat_lt
  simp only [alu, aluResult, carryIn, BitVec.toNat_ofInt]
  omega

theorem alu_cmp_result : (alu p .cmp a b f).result = a - b := alu_sub_result p a b f

theorem alu_mul_result_toNat : (alu p .mul a b f).result.toNat = a.toNat * b.toNat % 65536 := rfl

theorem alu_umulu_result_toNat : (alu p .umulu a b f).result.toNat = a.toNat * b.toNat / 65536 % 65536 := rfl

theorem alu_rrn_result : (alu p .rrn a b f).result = b.rotateRight 4 := by
  apply BitVec.eq_of_getLsbD_eq
  intro i hi
  simp only [alu, aluResult, BitVec.getLsbD_append, BitVec.getLsbD_extractLsb', BitVec.getLsbD_rotateRight]
  by_cases h : i < 12
  · simp [h, Nat.add_comm]
  · simp [h, hi, show i - 12 < 4 by omega]

theorem alu_rln_result : (alu p .rln a b f).result = b.rotateLeft 4 := by
  apply BitVec.eq_of_getLsbD_eq
  intro i hi
  simp only [alu, aluResult, BitVec.getLsbD_append, BitVec.getLsbD_extractLsb', BitVec.getLsbD_rotateLeft]
  by_cases h : i < 4
  · simp [h]
  · simp [h, hi, show i - 4 < 12 by omega]

theorem alu_bswap_result_toNat : (alu p .bswap a b f).result.toNat = 256 * (b.toNat % 256) + b.toNat / 256 := by
  have := b.isLt
  simp only [alu, aluResult, toNat_append_add, BitVec.extractLsb'_toNat, Nat.shiftRight_eq_div_pow]
  omega

end Results

/-! ### Products -/

/-- A signed word differs from its unsigned reading by a multiple of 2^16. -/
theorem toInt_eq_toNat_sub (a : Word) : ∃ k : Int, a.toInt = a.toNat - 65536 * k := by
  rw [BitVec.toInt_eq_toNat_cond]
  split
  · exact ⟨0, by simp⟩
  · exact ⟨1, by simp⟩

/-- The upper half of a product of 32 bits with sign, as a signed word. -/
theorem toInt_ofInt_upper {m : Int} (hlo : -2147483648 ≤ m) (hhi : m < 2147483648) :
    (BitVec.ofInt 16 (m / 65536)).toInt = m / 65536 := by
  rw [BitVec.toInt_ofInt]
  exact Int.bmod_eq_of_le (by omega) (by omega)

/-- A product of a signed word and any word, read with or without sign, has 32 bits with sign. -/
theorem product_bounds {x y : Int} (hx : |x| ≤ 32768) (hy : |y| ≤ 65535) : -2147483648 ≤ x * y ∧ x * y < 2147483648 := by
  have h : |x * y| ≤ 32768 * 65535 := by
    rw [abs_mul]
    exact mul_le_mul hx hy (abs_nonneg y) (by norm_num)
  obtain ⟨hlo, hhi⟩ := abs_le.1 h
  constructor <;> linarith

theorem abs_toInt_le (a : Word) : |a.toInt| ≤ 32768 :=
  abs_le.2 ⟨a.le_toInt, le_of_lt a.toInt_lt⟩

theorem abs_toNat_le (a : Word) : |(a.toNat : Int)| ≤ 65535 := by
  have := a.isLt
  rw [Nat.abs_cast]
  omega

/-- The halves of a signed product: its upper one by mulu, and its lower one by mul, which has no sign (R179, R180). -/
theorem mulu_mul_halves {p : Params} (a b : Word) (f : Flags)
    (hbounds : -2147483648 ≤ muluProduct p.muluReading a b ∧ muluProduct p.muluReading a b < 2147483648)
    (hcongr : ∃ k : Int, muluProduct p.muluReading a b = a.toNat * b.toNat - 65536 * k) :
    65536 * (alu p .mulu a b f).result.toInt + ((alu p .mul a b f).result.toNat : Int) = muluProduct p.muluReading a b := by
  obtain ⟨k, hk⟩ := hcongr
  have hupper : (alu p .mulu a b f).result.toInt = muluProduct p.muluReading a b / 65536 := toInt_ofInt_upper hbounds.1 hbounds.2
  rw [hupper, alu_mul_result_toNat]
  push_cast
  omega

theorem mulu_mul_signedSigned {p : Params} (hp : p.muluReading = .signedSigned) (a b : Word) (f : Flags) :
    65536 * (alu p .mulu a b f).result.toInt + ((alu p .mul a b f).result.toNat : Int) = a.toInt * b.toInt := by
  have hprod : muluProduct p.muluReading a b = a.toInt * b.toInt := by rw [hp]; rfl
  obtain ⟨j, hj⟩ := toInt_eq_toNat_sub a
  obtain ⟨k, hk⟩ := toInt_eq_toNat_sub b
  rw [← hprod]
  refine mulu_mul_halves a b f ?_ ⟨j * b.toNat + k * a.toNat - 65536 * j * k, ?_⟩ <;> rw [hprod]
  · exact product_bounds (abs_toInt_le a) ((abs_toInt_le b).trans (by norm_num))
  · rw [hj, hk]; ring

theorem mulu_mul_signedUnsigned {p : Params} (hp : p.muluReading = .signedUnsigned) (a b : Word) (f : Flags) :
    65536 * (alu p .mulu a b f).result.toInt + ((alu p .mul a b f).result.toNat : Int) = a.toInt * b.toNat := by
  have hprod : muluProduct p.muluReading a b = a.toInt * b.toNat := by rw [hp]; rfl
  obtain ⟨j, hj⟩ := toInt_eq_toNat_sub a
  rw [← hprod]
  refine mulu_mul_halves a b f ?_ ⟨j * b.toNat, ?_⟩ <;> rw [hprod]
  · exact product_bounds (abs_toInt_le a) (abs_toNat_le b)
  · rw [hj]; ring

/-- The halves of the unsigned product (R179, R185). -/
theorem umulu_mul_halves (p : Params) (a b : Word) (f : Flags) :
    65536 * (alu p .umulu a b f).result.toNat + (alu p .mul a b f).result.toNat = a.toNat * b.toNat := by
  have hlt : a.toNat * b.toNat < 65536 * 65536 := Nat.mul_lt_mul'' a.isLt b.isLt
  rw [alu_umulu_result_toNat, alu_mul_result_toNat]
  omega

/-! ### Flags in the spec's FLAG_RULES -/

section FlagsOfSpec
variable {p : Params} (hp : p.flagRules = FlagRules.spec) (a b : Word) (f : Flags)
include hp

/-- The operations of a sum (R172, R173). -/
theorem alu_flags_sum {op : AluOp} (hop : op ∈ [AluOp.add, .adc]) :
    (alu p op a b f).flags =
      { z := (alu p op a b f).result == 0, c := decide (65536 ≤ a.toNat + b.toNat + carryIn op f.c),
        s := (alu p op a b f).result.msb, v := outOfRange (a.toInt + b.toInt + carryIn op f.c) } := by
  simp only [List.mem_cons, List.not_mem_nil, or_false] at hop
  obtain rfl | rfl := hop <;> (simp only [alu, hp]; rfl)

/-- The operations of a difference (R174, R175, R183). -/
theorem alu_flags_difference {op : AluOp} (hop : op ∈ [AluOp.sub, .sbb, .cmp]) :
    (alu p op a b f).flags =
      { z := (alu p op a b f).result == 0, c := decide (a.toNat < b.toNat + carryIn op f.c),
        s := (alu p op a b f).result.msb, v := outOfRange (a.toInt - b.toInt - carryIn op f.c) } := by
  simp only [List.mem_cons, List.not_mem_nil, or_false] at hop
  obtain rfl | rfl | rfl := hop <;> (simp only [alu, hp]; rfl)

/-- The operations that keep C and V (R176 to R180, R184, R185). -/
theorem alu_flags_logic {op : AluOp} (hop : op ∈ [AluOp.and, .or, .xor, .test, .mul, .mulu, .umulu]) :
    (alu p op a b f).flags =
      { z := (alu p op a b f).result == 0, c := f.c, s := (alu p op a b f).result.getLsbD 15, v := f.v } := by
  simp only [List.mem_cons, List.not_mem_nil, or_false] at hop
  obtain rfl | rfl | rfl | rfl | rfl | rfl | rfl := hop <;> (simp only [alu, hp]; rfl)

/-- The operations that move or turn their operand (R171, R181, R182, R186). -/
theorem alu_flags_transfer {op : AluOp} (hop : op ∈ [AluOp.mov, .rrn, .rln, .bswap]) : (alu p op a b f).flags = f := by
  simp only [List.mem_cons, List.not_mem_nil, or_false] at hop
  obtain rfl | rfl | rfl | rfl := hop <;> (simp only [alu, hp]; rfl)

end FlagsOfSpec

/-! ### Signed overflow by the sign bits -/

theorem outOfRange_iff (t : Int) : outOfRange t = true ↔ t < -32768 ∨ 32767 < t := by
  simp [outOfRange]

/-- A sum overflows where its operands agree in sign and it does not (R172). -/
theorem outOfRange_add (a b : Word) : outOfRange (a.toInt + b.toInt) = (a.msb == b.msb && (a + b).msb != a.msb) := by
  have := a.isLt
  have := b.isLt
  rw [Bool.eq_iff_iff, outOfRange_iff]
  simp only [BitVec.toInt_eq_toNat_cond, BitVec.msb_eq_decide, BitVec.toNat_add, Bool.and_eq_true, beq_iff_eq, bne_iff_ne, ne_eq,
    decide_eq_decide]
  omega

/-- A difference overflows where its operands differ in sign, and its sign is not that of the one subtracted from (R174). -/
theorem outOfRange_sub (a b : Word) : outOfRange (a.toInt - b.toInt) = (a.msb != b.msb && (a - b).msb != a.msb) := by
  have := a.isLt
  have := b.isLt
  rw [Bool.eq_iff_iff, outOfRange_iff]
  simp only [BitVec.toInt_eq_toNat_cond, BitVec.msb_eq_decide, BitVec.toNat_sub, Bool.and_eq_true, bne_iff_ne, ne_eq,
    decide_eq_decide]
  omega

/-- A difference whose sign is not that of its exact value overflows, so S and V differ exactly where it is below zero (R230). -/
theorem msb_sub_ne_outOfRange (a b : Word) :
    ((a - b).msb != outOfRange (a.toInt - b.toInt)) = decide (a.toInt < b.toInt) := by
  have := a.isLt
  have := b.isLt
  rw [Bool.eq_iff_iff, bne_iff_ne, ne_eq, Bool.eq_iff_iff, outOfRange_iff]
  simp only [BitVec.toInt_eq_toNat_cond, BitVec.msb_eq_decide, BitVec.toNat_sub, decide_eq_true_eq]
  omega

end Machine

open Machine

/-! ### The statements on the operations -/

/-- Settles O15: the flags of a sum, with its overflow read off the sign bits. -/
theorem addFlags : Obligations.AddFlags := by
  intro p a b f
  refine ⟨⟨rfl, alu_add_result p a b f⟩, ⟨rfl, alu_adc_result_toNat p a b f⟩, fun hp => ⟨?add, ?adc⟩⟩
  case add =>
    rw [alu_flags_sum hp a b f (by simp), alu_add_result]
    simp [carryIn, outOfRange_add]
  case adc =>
    rw [alu_flags_sum hp a b f (by simp)]
    exact ⟨rfl, decide_eq_true_iff, rfl, outOfRange_iff _⟩

/-- Settles O16: the flags of a difference, with its overflow read off the sign bits. -/
theorem subtractFlags : Obligations.SubtractFlags := by
  intro p a b f
  refine ⟨⟨rfl, alu_sub_result p a b f⟩, rfl, ⟨rfl, alu_sbb_result_toNat p a b f⟩, fun hp => ⟨?sub, ?cmp, ?sbb⟩⟩
  case sub =>
    rw [alu_flags_difference hp a b f (by simp), alu_sub_result]
    simp [carryIn, outOfRange_sub]
  case cmp =>
    rw [alu_flags_difference hp a b f (by simp), alu_flags_difference hp a b f (by simp)]
    rfl
  case sbb =>
    rw [alu_flags_difference hp a b f (by simp)]
    exact ⟨rfl, decide_eq_true_iff, rfl, outOfRange_iff _⟩

/-- Settles O17: the bitwise operations are rows of FLAG_RULES that keep C and V. -/
theorem logicFlags : Obligations.LogicFlags := by
  intro p a b f
  refine ⟨fun i => ⟨BitVec.getLsbD_and, BitVec.getLsbD_or, BitVec.getLsbD_xor⟩, ?written, rfl,
    fun hp => ⟨fun op hop => ?flags, ?test⟩⟩
  case written => exact show ∀ op ∈ [AluOp.and, .or, .xor], resultWritten op = true by decide
  case flags =>
    refine alu_flags_logic hp a b f ?_
    revert op
    decide
  case test =>
    rw [alu_flags_logic hp a b f (by simp), alu_flags_logic hp a b f (by simp)]
    rfl

/-- Settles O18: both products have 32 bits, and the lower half does not depend on how the operands are read. -/
theorem multiplyHalves : Obligations.MultiplyHalves := by
  intro p a b f
  have hwritten : ∀ op ∈ [AluOp.mul, .mulu, .umulu], resultWritten op = true := by decide
  refine ⟨umulu_mul_halves p a b f, fun hp => mulu_mul_signedSigned hp a b f, fun hp => mulu_mul_signedUnsigned hp a b f,
    fun op hop => ⟨hwritten op hop, fun hp => alu_flags_logic hp a b f ?_⟩⟩
  revert op
  decide

/-- Settles O19: these rows of FLAG_RULES write no flag. -/
theorem transfersAndPermutations : Obligations.TransfersAndPermutations := by
  intro p a b f
  have hwritten : ∀ op ∈ [AluOp.mov, .rrn, .rln, .bswap], resultWritten op = true := by decide
  exact ⟨rfl, alu_rrn_result p a b f, alu_rln_result p a b f, alu_bswap_result_toNat p a b f,
    fun op hop => ⟨hwritten op hop, fun hp => alu_flags_transfer hp a b f hop⟩⟩

/-- Settles O20: after cmp Z is equality, C the unsigned order, and S against V the signed one; the ten conditions are made of
these three. -/
theorem compareOrderings : Obligations.CompareOrderings := by
  intro p a b f g hp hg
  have hflags : g = ⟨a - b == 0, decide (a.toNat < b.toNat), (a - b).msb, outOfRange (a.toInt - b.toInt)⟩ := by
    rw [hg, alu_flags_difference hp a b f (by simp), alu_cmp_result]
    simp [carryIn]
  have hz : g.z = decide (a = b) := by
    rw [hflags, beq_eq_decide]
    exact decide_eq_decide.2 sub_eq_zero
  have hc : g.c = decide (a.toNat < b.toNat) := by rw [hflags]
  have hlt : (g.s != g.v) = decide (a.toInt < b.toInt) := by rw [hflags, ← msb_sub_ne_outOfRange]
  have hge : (g.s == g.v) = decide (b.toInt ≤ a.toInt) := by
    have hnot : (g.s == g.v) = !(g.s != g.v) := by simp [bne]
    rw [hnot, hlt, ← decide_not]
    simp only [not_lt]
  have hnat : a = b ↔ a.toNat = b.toNat := BitVec.toNat_inj.symm
  have hint : a = b ↔ a.toInt = b.toInt := BitVec.toInt_inj.symm
  simp only [Cond.holds, hz, hc, hlt, hge, Bool.or_eq_true, Bool.and_eq_true, Bool.not_eq_true', decide_eq_true_eq,
    decide_eq_false_iff_not, ne_eq, not_lt]
  refine ⟨trivial, trivial, trivial, trivial, ?leu, ?gtu, trivial, trivial, ?le, ?gt⟩
  case leu | gtu => rw [hnat]; omega
  case le | gt => rw [hint]; omega

/-! ### Classes 2 and 3 -/

namespace Machine

theorem class2_done (op : AluOp) (d r : LowReg) (s : State) :
    ∃ t, exec (Instr.class2 op d r) s = .next t ∧ s.AluDone t op (low d) (s.readReg (low d)) (s.readReg (low r)) :=
  ⟨_, exec_class2 op d r s, aluDone_applyAlu s op _ _ _⟩

end Machine

/-- Settles O13: the sixteen rows are one operation by its number, and with one register twice the results are those of the
operation on equal operands. -/
theorem classTwoAlu : Obligations.ClassTwoAlu := by
  unfold Obligations.ClassTwoAlu
  refine ⟨decodeWord_class2, class2_done, fun d s => ?add, fun d s => ?sub, fun d s => ?xor, fun d s => ?cmp⟩
  case add =>
    obtain ⟨t, hexec, hdone⟩ := class2_done .add d d s
    have hreg := hdone.reg rfl
    rw [alu_add_result, ← two_mul] at hreg
    exact ⟨t, hexec, hreg⟩
  case sub =>
    obtain ⟨t, hexec, hdone⟩ := class2_done .sub d d s
    have hreg := hdone.reg rfl
    rw [alu_sub_result, sub_self] at hreg
    refine ⟨t, hexec, hreg, fun hp => ?_⟩
    rw [hdone.flags, alu_flags_difference hp _ _ _ (by simp), alu_sub_result]
    simp
  case xor =>
    obtain ⟨t, hexec, hdone⟩ := class2_done .xor d d s
    have hresult : (alu s.params .xor (s.readReg (low d)) (s.readReg (low d)) s.flags).result = 0 := BitVec.xor_self
    have hreg := hdone.reg rfl
    rw [hresult] at hreg
    refine ⟨t, hexec, hreg, fun hp => ?_⟩
    rw [hdone.flags, alu_flags_logic hp _ _ _ (by simp), hresult]
    rfl
  case cmp =>
    obtain ⟨t, hexec, hdone⟩ := class2_done .cmp d d s
    refine ⟨t, hexec, fun hp => ?_⟩
    rw [hdone.flags, alu_flags_difference hp _ _ _ (by simp), alu_cmp_result]
    simp [carryIn, outOfRange]

/-- Settles O14: thirteen rows are an operation on the 16-bit immediate. -/
theorem classThreeAlu : Obligations.ClassThreeAlu := by
  unfold Obligations.ClassThreeAlu
  refine ⟨decodeWord_class3, fun op d lo s h10 h11 h15 => ?row, fun lo s h => ?none⟩
  case row => exact ⟨_, exec_class3 op d lo s h10 h11 h15, aluDone_applyAlu s op _ _ _⟩
  case none => rw [toNat_append_add, h]; simp

end Sys2Proof
end

section
/-! PROOFS (the families of 43_class4_5_branch_cmov.md and 44_class6_9_two_word_alu.md). The conditions, the branches, BL and the
conditional moves (R230 to R248); class 9 (R265 to R268); and the two words of a row run one after the other (R80, R92). -/

namespace Sys2Proof

/-! ### The words of classes 4, 5 and 9 -/

theorem decodeWord_class4 (cond : Cond) (r : LowReg) (lo : Imm4) :
    decodeWord (0x4#4 ++ cond.toBits ++ r ++ lo) = Instr.branch cond r lo := by
  have h := decodeWord_of_class4 (nibble3_word4 0x4 cond.toBits r lo)
  rw [nibble2_word4, nibble1_word4, nibble0_word4, Cond.ofBits_toBits] at h
  exact h

theorem decodeWord_class5 (cond : Cond) (d r : LowReg) :
    decodeWord (0x5#4 ++ cond.toBits ++ d ++ r) = Instr.condMove cond d r := by
  have h := decodeWord_of_class5 (nibble3_word4 0x5 cond.toBits d r)
  rw [nibble2_word4, nibble1_word4, nibble0_word4, Cond.ofBits_toBits] at h
  exact h

theorem decodeWord_class9 (d a b : LowReg) : decodeWord (0x9#4 ++ d ++ a ++ b) = .class9Word d a b := by
  have h := decodeWord_of_class9 (nibble3_word4 0x9 d a b)
  rw [nibble2_word4, nibble1_word4, nibble0_word4] at h
  exact h

theorem decodeWord_of_class1 {w : Word} (h : nibble3 w = 0x1) : decodeWord w = .imm (low12 w) := by
  simp [decodeWord, h]

/-- The condition of a word of class 9 is the one whose number bits 7:4 of the immediate register hold (R92). -/
theorem prefixCond_of_mid4 {h : BitVec 12} {cond : Cond} (hcond : h.extractLsb' 4 4 = cond.toBits) : prefixCond h = cond := by
  rw [prefixCond, hcond, Cond.ofBits_toBits]

/-- A pair is a class 1 word and a word of class 6 or 9, and is what the second word is under the first (R92). -/
theorem decodePair_eq_some {p w : Word} {i : Instr} (h : decodePair p w = some i) :
    nibble3 p = 0x1 ∧ (nibble3 w = 0x6 ∨ nibble3 w = 0x9) ∧ i = (decodeWord w).resolve (low12 p) := by
  unfold decodePair at h
  split at h
  next hclass =>
    simp only [Bool.and_eq_true, Bool.or_eq_true, beq_iff_eq] at hclass
    exact ⟨hclass.1, hclass.2, (Option.some.inj h).symm⟩
  next => contradiction

namespace Machine

/-! ### Branches -/

theorem branch_pc (s : State) (taken : Bool) (target : Word) :
    (s.branch taken target).pc = if taken = true then target else s.pc + 2 := by
  unfold State.branch
  split <;> rfl

theorem sameRest_branch (s : State) (taken : Bool) (target : Word) : s.SameRest (s.branch taken target) := by
  apply sameRest_of_eq <;> simp

/-! ### Conditional moves and conditional ALU operations, by their condition -/

section Conditional
variable {s : State} {cond : Cond}

theorem moveDone_condMove (h : cond.holds s.flags = true) (d : RegNum) (v : Word) : s.MoveDone (s.condMove cond d v) d v := by
  rw [State.condMove, if_pos h]
  exact moveDone_writeReg s d v

theorem nothingDone_condMove (h : cond.holds s.flags = false) (d : RegNum) (v : Word) :
    s.NothingDone (s.condMove cond d v) := by
  rw [State.condMove, if_neg (by simp [h])]
  exact nothingDone_advance s

theorem aluDone_condAlu (h : cond.holds s.flags = true) (op : AluOp) (d : RegNum) (a b : Word) :
    s.AluDone (condAlu s cond op d a b) op d a b := by
  rw [condAlu, if_pos h]
  exact aluDone_applyAlu s op d a b

theorem nothingDone_condAlu (h : cond.holds s.flags = false) (op : AluOp) (d : RegNum) (a b : Word) :
    s.NothingDone (condAlu s cond op d a b) := by
  rw [condAlu, if_neg (by simp [h])]
  exact nothingDone_advance s

end Conditional

/-! ### A word under the immediate register is its row -/

/-- Executing an instruction is executing the row that it is under the immediate register (R92). -/
theorem exec_resolve (i : Instr) (s : State) : exec (i.resolve s.immhi) s = exec i s := by
  cases i with
  | class6Word dir rx rl => exact (exec_class6Word dir rx rl s).symm
  | class9Word d a b => exact (exec_class9Word d a b s).symm
  | _ => rfl

/-- A word of class 6 or 9 completes and goes on at the next instruction (R262, R267). -/
theorem exec_twoWord {w : Word} (hw : nibble3 w = 0x6 ∨ nibble3 w = 0x9) (s : State) :
    ∃ t, exec (decodeWord w) s = .next t ∧ t.pc = s.pc + 2 := by
  obtain hw | hw := hw
  · rw [decodeWord_of_class6 hw, exec_class6Word, exec_class6]
    exact ⟨_, rfl, applyAlu_pc _ _ _ _ _⟩
  · rw [decodeWord_of_class9 hw, exec_class9Word, exec_class9]
    exact ⟨_, rfl, condAlu_pc _ _ _ _ _ _⟩

end Machine

open Machine

/-! ### The statements -/

/-- Settles O21: the formulas of the conditions in the order of their numbers. -/
theorem conditionTable : Obligations.ConditionTable :=
  fun f => congrArg (List.map (Cond.holds · f)) cond_numbers

/-- Settles O22: the fifteen rows are one branch by its condition. -/
theorem branches : Obligations.Branches :=
  fun cond r lo s hcond => ⟨decodeWord_class4 cond r lo, _, exec_branch cond r lo s hcond, branch_pc s _ _, branch_immhi s _ _,
    branch_flags s _ _, readReg_branch s _ _, sameRest_branch s _ _⟩

/-- Settles O23: the target is a function of the state before the link is written. -/
theorem branchAndLink : Obligations.BranchAndLink :=
  fun r lo s => ⟨decodeWord_class4 .l r lo, _, exec_bl r lo s, rfl, wroteReg_branchLink s _, rfl, rfl,
    sameRest_branchLink s _⟩

/-- Settles O24: the sixteen rows and MOV.cc are one move by its condition. -/
theorem conditionalMove : Obligations.ConditionalMove :=
  fun cond d r s => ⟨decodeWord_class5 cond d r, _, exec_condMove cond d r s, exec_movCc cond d r s,
    fun h => moveDone_condMove h _ _, fun h => nothingDone_condMove h _ _⟩

/-- Settles O27: a row of class 9 is its operation under its condition, and the word is the row that the immediate register
names. -/
theorem classNineAlu : Obligations.ClassNineAlu := by
  unfold Obligations.ClassNineAlu
  refine ⟨decodeWord_class9, fun op cond d a b s => ?row, fun op cond d a b s hop hcond => ?word⟩
  case row =>
    exact ⟨_, exec_class9 op cond d a b s, fun h => aluDone_condAlu h _ _ _ _, fun h => nothingDone_condAlu h _ _ _ _⟩
  case word =>
    have hword := exec_class9Word d a b s
    rw [prefixOp_of_low4 hop, prefixCond_of_mid4 hcond] at hword
    exact ⟨_, hword.trans (exec_class9 op cond d a b s), exec_class9 op cond d a b s⟩

/-- Settles O28: the first word loads the immediate register, and under it the second word is the row. -/
theorem pairRunsAsItsRow : Obligations.PairRunsAsItsRow := by
  unfold Obligations.PairRunsAsItsRow
  refine ⟨fun p w i s hpair => ?pair, fun dir rx rl s h0 => ?class6, fun d a b s h0 => ?class9⟩
  case pair =>
    obtain ⟨hp, hw, rfl⟩ := decodePair_eq_some hpair
    obtain ⟨u, hexec, hpc⟩ := exec_twoWord hw (s.setPrefix (low12 p))
    have hrow := exec_resolve (decodeWord w) (s.setPrefix (low12 p))
    refine ⟨s.setPrefix (low12 p), u, by rw [decodeWord_of_class1 hp, exec_imm], hexec, hrow.trans hexec, ?_⟩
    rw [hpc, setPrefix_pc, nextPc_eq, add_assoc]
    rfl
  case class6 => rw [exec_class6Word, h0]; rfl
  case class9 => rw [exec_class9Word, h0]; rfl

end Sys2Proof
end

section
/-! PROOFS (the families of 20_memory.md, 45_class7_8_AB_CD_memory.md and 46_classEF_port_io.md). Addresses; the loads and
stores of main memory and of the upper banks, and a load after a store; where an access stops; and the ports (R50 to R66, R280 to
R292, R310 to R312). -/

namespace Sys2Proof

namespace Machine

/-! ### Addresses -/

/-- A register plus the 16-bit immediate, as a number (R61, R90). -/
theorem regPlusImm_toNat (s : State) (r : LowReg) (lo : Imm4) :
    (regPlusImm s r lo).toNat = ((s.readReg (low r)).toNat + 16 * s.immhi.toNat + lo.toNat) % 65536 := by
  rw [regPlusImm, imm16, BitVec.toNat_add, toNat_append_add]
  omega

/-- A displacement one higher names the address one higher, where it does not wrap. -/
theorem effAddr_succ (s : State) (idx : LowReg) {lo : Imm4} (hlo : lo ≠ 15#4) :
    effAddr s idx (lo + 1) = effAddr s idx lo + 1 := by
  have hne : lo.toNat ≠ 15 := fun h => hlo (BitVec.eq_of_toNat_eq h)
  have hlt := lo.isLt
  have hsucc : (lo + 1).toNat = lo.toNat + 1 := by
    rw [BitVec.toNat_add, show (1 : BitVec 4).toNat = 1 from rfl]
    omega
  apply BitVec.eq_of_toNat_eq
  rw [BitVec.toNat_add, effAddr, effAddr, regPlusImm_toNat, regPlusImm_toNat, hsucc, show (1 : Word).toNat = 1 from rfl]
  omega

/-- The two bytes of a word of the upper banks are neighbours (R51, R58). -/
theorem upperLoc_succ {ea : Word} (h : ea.getLsbD 0 = false) : upperLoc (ea + 1) = upperLoc ea + 1 := by
  obtain ⟨hbit, hword, -⟩ := even_succ ea h
  rw [upperLoc, upperLoc, hbit, hword, h]
  rfl

/-! ### Bytes of a word as numbers -/

theorem firstByte_eq (p : Params) (v : Word) : p.firstByte v = (evenByte p.endian v).toNat := by
  have := v.isLt
  cases h : p.endian <;>
    simp only [Params.firstByte, h, evenByte, BitVec.extractLsb'_toNat, Nat.shiftRight_eq_div_pow] <;> omega

theorem secondByte_eq (p : Params) (v : Word) : p.secondByte v = (oddByte p.endian v).toNat := by
  have := v.isLt
  cases h : p.endian <;>
    simp only [Params.secondByte, h, oddByte, BitVec.extractLsb'_toNat, Nat.shiftRight_eq_div_pow] <;> omega

/-- What a byte load without sign leaves in the register, as a number (R289, U6). -/
theorem byteToReg_toNat (p : Params) (old : Word) (b : Byte) :
    (byteToReg p.byteLoadFill old b).toNat = p.byteLoaded old b.toNat := by
  have := old.isLt
  have := b.isLt
  cases h : p.byteLoadFill with
  | zero =>
    simp only [byteToReg, Params.byteLoaded, h, BitVec.zeroExtend, BitVec.toNat_setWidth]
    omega
  | keep =>
    simp only [byteToReg, Params.byteLoaded, h, toNat_append_add, BitVec.extractLsb'_toNat, Nat.shiftRight_eq_div_pow]
    omega

/-- The two bytes of a word set at neighbouring places (R51). -/
def Memory.writeWord (m : Memory) (order : Endian) (a : Nat) (v : Word) : Memory :=
  (m.write a (evenByte order v)).write (a + 1) (oddByte order v)

/-- What a byte reads as after a word is written. -/
theorem read_writeWord {m : Memory} (hm : m.wf = true) (order : Endian) (a x : Nat) (v : Word) :
    (m.writeWord order a v).read x =
      if x = a then evenByte order v else if x = a + 1 then oddByte order v else m.read x := by
  rw [Memory.writeWord, read_write _ _ _ _ (wf_write _ _ _ hm), read_write _ _ _ _ hm]
  by_cases hx : x = a
  · simp [hx]
  · by_cases hx1 : x = a + 1 <;> simp [hx, hx1]

theorem read_writeWord_toNat {m : Memory} (hm : m.wf = true) (p : Params) (a x : Nat) (v : Word) :
    ((m.writeWord p.endian a v).read x).toNat =
      if x = a then p.firstByte v else if x = a + 1 then p.secondByte v else (m.read x).toNat := by
  rw [read_writeWord hm, firstByte_eq, secondByte_eq]
  split
  · rfl
  · split <;> rfl

/-- The two bytes written read as the word (R52, R63). -/
theorem joinBytes_read_writeWord {m : Memory} (hm : m.wf = true) (order : Endian) (a : Nat) (v : Word) :
    joinBytes order ((m.writeWord order a v).read a) ((m.writeWord order a v).read (a + 1)) = v := by
  rw [read_writeWord hm, read_writeWord hm, if_pos rfl, if_neg (by omega), if_pos rfl, joinBytes_bytes]

/-! ### The state with a memory replaced -/

def State.setMem (s : State) (m : Memory) : State := { s with mem := m }

def State.setUpper (s : State) (m : Memory) : State := { s with upper := m }

/-- A store to main memory changes nothing else. -/
theorem frame_setMem (s : State) (m : Memory) :
    s.SameRegs (s.setMem m).advance ∧ (s.setMem m).advance.flags = s.flags ∧ s.MovesOn (s.setMem m).advance ∧
      s.SameUpper (s.setMem m).advance ∧ s.SamePorts (s.setMem m).advance ∧ s.SameInputs (s.setMem m).advance ∧
      s.SameMode (s.setMem m).advance ∧ s.SameContext (s.setMem m).advance :=
  ⟨fun _ => rfl, rfl, ⟨rfl, rfl⟩, fun _ => rfl, ⟨rfl, rfl, rfl⟩, ⟨rfl, rfl, ⟨rfl, rfl, rfl⟩⟩, ⟨rfl, rfl⟩,
    ⟨rfl, rfl⟩⟩

/-- A store to the upper banks changes nothing else. -/
theorem frame_setUpper (s : State) (m : Memory) :
    s.SameRegs (s.setUpper m).advance ∧ (s.setUpper m).advance.flags = s.flags ∧ s.MovesOn (s.setUpper m).advance ∧
      s.SameMem (s.setUpper m).advance ∧ s.SamePorts (s.setUpper m).advance ∧ s.SameInputs (s.setUpper m).advance ∧
      s.SameMode (s.setUpper m).advance ∧ s.SameContext (s.setUpper m).advance :=
  ⟨fun _ => rfl, rfl, ⟨rfl, rfl⟩, fun _ => rfl, ⟨rfl, rfl, rfl⟩, ⟨rfl, rfl, ⟨rfl, rfl, rfl⟩⟩, ⟨rfl, rfl⟩,
    ⟨rfl, rfl⟩⟩

/-! ### Where the accesses go on, and to what -/

section Accesses
variable {s : State} {idx reg : LowReg} {lo : Imm4}

theorem exec_ldbsx (h : s.admitsMem (effAddr s idx lo) = true) :
    exec (.ldbsx idx reg lo) s =
      .next (s.writeReg (low reg) ((s.mem.read (effAddr s idx lo).toNat).signExtend 16)).advance :=
  (andThen_next _ _ _).2 ⟨_, (memReadByte_next _ _ _).2 ⟨h, rfl⟩, rfl⟩

theorem exec_ldb (h : s.admitsMem (effAddr s idx lo) = true) :
    exec (.ldb idx reg lo) s =
      .next (s.writeReg (low reg)
        (byteToReg s.params.byteLoadFill (s.readReg (low reg)) (s.mem.read (effAddr s idx lo).toNat))).advance :=
  (andThen_next _ _ _).2 ⟨_, (memReadByte_next _ _ _).2 ⟨h, rfl⟩, rfl⟩

theorem exec_ld (heven : (effAddr s idx lo).getLsbD 0 = false) (h : s.admitsMem (effAddr s idx lo) = true)
    (h1 : s.admitsMem (effAddr s idx lo + 1) = true) :
    exec (.ld idx reg lo) s =
      .next (s.writeReg (low reg) (joinBytes s.params.endian (s.mem.read (effAddr s idx lo).toNat)
        (s.mem.read ((effAddr s idx lo).toNat + 1)))).advance := by
  rw [← (even_succ _ heven).2.2]
  exact (andThen_next _ _ _).2 ⟨_, (memReadWord_next _ _ _).2 ⟨heven, h, h1, rfl⟩, rfl⟩

theorem exec_stb (h : s.admitsMem (effAddr s idx lo) = true) (ht : s.isText (effAddr s idx lo) = false) :
    exec (.stb idx reg lo) s =
      .next (s.setMem (s.mem.write (effAddr s idx lo).toNat ((s.readReg (low reg)).extractLsb' 0 8))).advance :=
  (andThen_next _ _ _).2 ⟨_, (memWriteByte_next _ _ _ _).2 ⟨h, ht, rfl⟩, rfl⟩

/-- ST goes on exactly where its address is even and both of its bytes can be stored (R54, R60, R66). -/
theorem exec_st_iff {t : State} :
    exec (.st idx reg lo) s = .next t ↔ (effAddr s idx lo).getLsbD 0 = false ∧
      s.admitsMem (effAddr s idx lo) = true ∧ s.isText (effAddr s idx lo) = false ∧
      s.admitsMem (effAddr s idx lo + 1) = true ∧ s.isText (effAddr s idx lo + 1) = false ∧
      t = (s.setMem
        (s.mem.writeWord s.params.endian (effAddr s idx lo).toNat (s.readReg (low reg)))).advance := by
  constructor
  · intro h
    obtain ⟨u, hw, hu⟩ := (andThen_next _ _ _).1 h
    obtain ⟨heven, ha, ht, ha1, ht1, rfl⟩ := (memWriteWord_next _ _ _ _).1 hw
    obtain rfl := Host.Outcome.next.inj hu
    rw [(even_succ _ heven).2.2]
    exact ⟨heven, ha, ht, ha1, ht1, rfl⟩
  · rintro ⟨heven, ha, ht, ha1, ht1, rfl⟩
    rw [Memory.writeWord, ← (even_succ _ heven).2.2]
    exact (andThen_next _ _ _).2 ⟨_, (memWriteWord_next _ _ _ _).2 ⟨heven, ha, ht, ha1, ht1, rfl⟩, rfl⟩

theorem exec_uld (heven : (upperAddr s idx).getLsbD 0 = false) :
    exec (.uld idx reg) s =
      .next (s.writeReg (low reg) (joinBytes s.params.endian (s.upper.read (upperLoc (upperAddr s idx)))
        (s.upper.read (upperLoc (upperAddr s idx) + 1)))).advance := by
  rw [← upperLoc_succ heven]
  exact (andThen_next _ _ _).2 ⟨_, (upperReadWord_next _ _ _).2 ⟨heven, rfl⟩, rfl⟩

theorem exec_uldb :
    exec (.uldb idx reg) s =
      .next (s.writeReg (low reg) (byteToReg s.params.byteLoadFill (s.readReg (low reg))
        (s.upper.read (upperLoc (upperAddr s idx))))).advance := rfl

theorem exec_uldbsx :
    exec (.uldbsx idx reg) s =
      .next (s.writeReg (low reg) ((s.upper.read (upperLoc (upperAddr s idx))).signExtend 16)).advance := rfl

/-- UST goes on exactly where its address is even (R54). -/
theorem exec_ust_iff {t : State} :
    exec (.ust idx reg) s = .next t ↔ (upperAddr s idx).getLsbD 0 = false ∧
      t = (s.setUpper
        (s.upper.writeWord s.params.endian (upperLoc (upperAddr s idx)) (s.readReg (low reg)))).advance := by
  constructor
  · intro h
    obtain ⟨u, hw, hu⟩ := (andThen_next _ _ _).1 h
    obtain ⟨heven, rfl⟩ := (upperWriteWord_next _ _ _ _).1 hw
    obtain rfl := Host.Outcome.next.inj hu
    rw [Memory.writeWord, ← upperLoc_succ heven]
    exact ⟨heven, rfl⟩
  · rintro ⟨heven, rfl⟩
    rw [Memory.writeWord, ← upperLoc_succ heven]
    exact (andThen_next _ _ _).2 ⟨_, (upperWriteWord_next _ _ _ _).2 ⟨heven, rfl⟩, rfl⟩

theorem exec_ustb :
    exec (.ustb idx reg) s =
      .next (s.setUpper
        (s.upper.write (upperLoc (upperAddr s idx)) ((s.readReg (low reg)).extractLsb' 0 8))).advance := rfl

end Accesses

/-! ### Where they stop -/

section Stops
variable {s : State} {a : Word}

theorem memReadWord_absent (heven : a.getLsbD 0 = false) (h : s.admitsMem a = false) :
    memReadWord s a = .refused (.memoryNotAdmitted a) := by
  rw [memReadWord, if_neg (by rw [heven]; decide), memReadByte_absent s a h]
  rfl

theorem memReadWord_absent_second (heven : a.getLsbD 0 = false) (h : s.admitsMem a = true)
    (h1 : s.admitsMem (a + 1) = false) : memReadWord s a = .refused (.memoryNotAdmitted (a + 1)) := by
  rw [memReadWord, if_neg (by rw [heven]; decide), (memReadByte_next s a _).2 ⟨h, rfl⟩, andThen,
    memReadByte_absent s (a + 1) h1]
  rfl

theorem memWriteByte_stop {b : Byte} {e : Refusal} (h : storeAllowed s a = .refused e) : memWriteByte s a b = .refused e := by
  rw [memWriteByte, h]
  rfl

theorem memWriteWord_stop {v : Word} {e : Refusal} (heven : a.getLsbD 0 = false) (h : storeAllowed s a = .refused e) :
    memWriteWord s a v = .refused e := by
  rw [memWriteWord, if_neg (by rw [heven]; decide), h]
  rfl

theorem memWriteWord_stop_second {v : Word} {e : Refusal} (heven : a.getLsbD 0 = false) (h : s.admitsMem a = true)
    (ht : s.isText a = false) (h1 : storeAllowed s (a + 1) = .refused e) : memWriteWord s a v = .refused e := by
  rw [memWriteWord, if_neg (by rw [heven]; decide), (storeAllowed_next s a ()).2 ⟨h, ht⟩, andThen, h1]
  rfl

/-- An operation that stops, stops the instruction that goes on with its value. -/
theorem andThen_refused {α β : Type} {r : Res α} {e : Refusal} (h : r = .refused e) (f : α → Res β) :
    andThen r f = .refused e := by
  rw [h]
  rfl

theorem andThen_fault {α β : Type} {r : Res α} {e : Fault} (h : r = .fault e) (f : α → Res β) : andThen r f = .fault e := by
  rw [h]
  rfl

/-- With no interrupt and awake the step is the instruction at pc (R320). -/
theorem step_awake (hint : s.interruptTaken = false) (hsl : s.sleeping = false) :
    step s = andThen (fetchWord s) fun w => exec (decodeWord w) s.pollIrq := by
  simp [step, hint, hsl]

theorem fetchWord_absent (heven : s.pc.getLsbD 0 = false) (h : s.admitsFetch s.pc = false) :
    fetchWord s = .refused (.memoryNotAdmitted s.pc) := by
  rw [fetchWord, if_neg (by rw [heven]; decide), fetchByte_absent s _ h]
  rfl

theorem fetchWord_absent_second (heven : s.pc.getLsbD 0 = false) (h : s.admitsFetch s.pc = true)
    (h1 : s.admitsFetch (s.pc + 1) = false) : fetchWord s = .refused (.memoryNotAdmitted (s.pc + 1)) := by
  rw [fetchWord, if_neg (by rw [heven]; decide), (fetchByte_next s s.pc _).2 ⟨h, rfl⟩, andThen, fetchByte_absent s _ h1]
  rfl

end Stops

end Machine

open Machine

/-! ### The statements on main memory -/

/-- Settles O29: the four address forms are one, but that class 7 has no immediate. -/
theorem effectiveAddresses : Obligations.EffectiveAddresses :=
  fun s r lo => ⟨regPlusImm_toNat s r lo, rfl, rfl, rfl⟩

/-- Settles O30: where the platform admits the byte each load is a move of what it makes of it. -/
theorem byteLoads : Obligations.ByteLoads :=
  fun _ reg _ s h =>
    ⟨⟨_, _, exec_ldbsx h, moveDone_writeReg s (low reg) _, BitVec.toInt_signExtend_of_le (by omega)⟩,
      ⟨_, _, exec_ldb h, moveDone_writeReg s (low reg) _, byteToReg_toNat s.params _ _⟩⟩

/-- Settles O31: the word loaded is the join of its two bytes. -/
theorem wordLoad : Obligations.WordLoad := by
  intro idx reg lo s heven h h1
  refine ⟨_, _, exec_ld heven h h1, moveDone_writeReg s (low reg) _, ?_, ?_⟩
  · rw [firstByte_eq, evenByte_joinBytes]
  · rw [secondByte_eq, oddByte_joinBytes]

/-- Settles O32, from what a memory reads after a write. -/
theorem byteStore : Obligations.ByteStore :=
  fun _ _ _ s hm h ht => ⟨_, exec_stb h ht, fun a => read_write s.mem _ a _ hm, frame_setMem s _⟩

/-- Settles O33, from what a memory reads after a word is written. -/
theorem wordStore : Obligations.WordStore :=
  fun _ _ _ s hm heven h h1 ht ht1 =>
    ⟨_, exec_st_iff.2 ⟨heven, h, ht, h1, ht1, rfl⟩, fun a => read_writeWord_toNat hm s.params _ a _, frame_setMem s _⟩

/-- Settles O34: the store leaves the registers, so the load has the address of the store and finds its bytes there. -/
theorem loadAfterStore : Obligations.LoadAfterStore := by
  intro idx reg d lo s t hm hst hkeeps
  obtain ⟨heven, ha, -, ha1, -, rfl⟩ := exec_st_iff.1 hst
  have hkept (m : Memory) : { (s.setMem m).advance with immhi := s.immhi } = (s.setPrefix s.immhi).setMem m := rfl
  rw [hkept]
  generalize hr : (s.setPrefix s.immhi).setMem _ = r
  have hkeeps : r.discards (low d) = false := by rwa [← hr]
  have hold : r.readReg (low d) = s.readReg (low d) := by rw [← hr]; rfl
  have hparams : r.params = s.params := by rw [← hr]; rfl
  have hea (k) : effAddr r idx k = effAddr s idx k := by rw [← hr]; rfl
  have hadmits (a) : r.admitsMem a = s.admitsMem a := by rw [← hr]; rfl
  have hmem : r.mem = s.mem.writeWord s.params.endian (effAddr s idx lo).toNat (s.readReg (low reg)) := by rw [← hr]; rfl
  refine ⟨⟨_, exec_ld (by rwa [hea]) (by rwa [hadmits, hea]) (by rwa [hadmits, hea]), ?word⟩,
    ⟨_, exec_ldb (by rwa [hadmits, hea]), ?even⟩, fun hlo => ⟨_, exec_ldb ?_, ?odd⟩⟩
  case word =>
    rw [readReg_advance, readReg_writeReg_same _ _ _ hkeeps, hparams, hmem, hea, joinBytes_read_writeWord hm]
  case even =>
    rw [readReg_advance, readReg_writeReg_same _ _ _ hkeeps, byteToReg_toNat, hold, hparams, hmem, hea,
      read_writeWord_toNat hm, if_pos rfl]
  case odd =>
    rw [readReg_advance, readReg_writeReg_same _ _ _ hkeeps, byteToReg_toNat, hold, hparams, hmem, hea, effAddr_succ s idx hlo,
      (even_succ _ heven).2.2, read_writeWord_toNat hm, if_neg (by omega), if_pos rfl]
  · rwa [hadmits, hea, effAddr_succ s idx hlo]

/-! ### The statements on the upper banks -/

/-- Settles O35: the second byte of a word is at the location after the one of its first. -/
theorem upperLoads : Obligations.UpperLoads := by
  intro idx reg s
  refine ⟨fun heven => ⟨_, _, exec_uld heven, moveDone_writeReg s (low reg) _, ?_, ?_⟩,
    ⟨_, _, exec_uldb, moveDone_writeReg s (low reg) _, byteToReg_toNat s.params _ _⟩,
    ⟨_, _, exec_uldbsx, moveDone_writeReg s (low reg) _, BitVec.toInt_signExtend_of_le (by omega)⟩⟩
  · rw [firstByte_eq, evenByte_joinBytes]
  · rw [secondByte_eq, oddByte_joinBytes]

/-- Settles O36, from what a memory reads after a write. -/
theorem upperStores : Obligations.UpperStores :=
  fun _ _ s hu =>
    ⟨fun heven => ⟨_, exec_ust_iff.2 ⟨heven, rfl⟩, fun a => read_writeWord_toNat hu s.params _ a _, frame_setUpper s _⟩,
      ⟨_, exec_ustb, fun a => read_write s.upper _ a _ hu, frame_setUpper s _⟩⟩

/-- Settles O37: the store leaves the index register, so both instructions have one location. -/
theorem upperLoadAfterStore : Obligations.UpperLoadAfterStore := by
  intro idx reg d s t u hu hkeeps hust huld
  obtain ⟨heven, rfl⟩ := exec_ust_iff.1 hust
  generalize hm : s.upper.writeWord s.params.endian (upperLoc (upperAddr s idx)) (s.readReg (low reg)) = m at huld
  have hload := exec_uld (s := (s.setUpper m).advance) (idx := idx) (reg := d) heven
  obtain rfl := Host.Outcome.next.inj (hload.symm.trans huld)
  rw [readReg_advance, readReg_writeReg_same (s.setUpper m).advance (low d) _ hkeeps]
  subst hm
  exact joinBytes_read_writeWord hu s.params.endian (upperLoc (upperAddr s idx)) _

/-! ### The statements on accesses that stop -/

/-- Settles O38: the parity of the address is tested before anything else. -/
theorem misalignedFaults : Obligations.MisalignedFaults := by
  unfold Obligations.MisalignedFaults
  refine ⟨fun idx reg lo s hodd => ⟨?ld, ?st⟩, fun idx reg s hodd => ⟨?uld, ?ust⟩, fun s hint hsl hodd => ?fetch⟩
  case ld => exact andThen_fault (if_pos hodd) _
  case st => exact andThen_fault (if_pos hodd) _
  case uld => exact andThen_fault (if_pos hodd) _
  case ust => exact andThen_fault (if_pos hodd) _
  case fetch =>
    rw [step_awake hint hsl]
    exact andThen_fault (if_pos hodd) _

/-- Settles O39: each instruction stops where its access does. -/
theorem refusedAccesses : Obligations.RefusedAccesses := by
  unfold Obligations.RefusedAccesses
  refine ⟨fun idx reg lo s h => ?absent, fun idx reg lo s h ht => ?text, fun idx reg lo s heven h => ?second,
    fun s hint hsl heven => ?fetch, fun rp rv lo s h => ?port⟩
  case absent =>
    have hread := memReadByte_absent s _ h
    have hstore := storeAllowed_absent s _ h
    exact ⟨andThen_refused hread _, andThen_refused hread _, andThen_refused (memWriteByte_stop hstore) _, fun heven =>
      ⟨andThen_refused (memReadWord_absent heven h) _, andThen_refused (memWriteWord_stop heven hstore) _⟩⟩
  case text =>
    have hstore := storeAllowed_text s _ h ht
    exact ⟨andThen_refused (memWriteByte_stop hstore) _, fun heven => andThen_refused (memWriteWord_stop heven hstore) _⟩
  case second =>
    exact ⟨fun h1 => andThen_refused (memReadWord_absent_second heven h h1) _,
      fun ht h1 => andThen_refused (memWriteWord_stop_second heven h ht (storeAllowed_absent s _ h1)) _,
      fun ht h1 ht1 => andThen_refused (memWriteWord_stop_second heven h ht (storeAllowed_text s _ h1 ht1)) _⟩
  case fetch =>
    rw [step_awake hint hsl]
    exact ⟨fun h => andThen_refused (fetchWord_absent heven h) _,
      fun h h1 => andThen_refused (fetchWord_absent_second heven h h1) _, fun hu a => if_pos hu⟩
  case port =>
    have hp : ¬ s.admitsPort (portAddr s rp lo) = true := by simp [h]
    exact ⟨andThen_refused (if_neg hp) _, andThen_refused (if_neg hp) _⟩

/-! ### The statements on ports -/

/-- Settles O40: the datum is the one the platform presents, supplied or free. -/
theorem portInput : Obligations.PortInput := by
  intro rp rv lo s h
  have hread : portRead s (portAddr s rp lo) = .next (s.portDatum (portAddr s rp lo)) := (portRead_next _ _ _).2 ⟨h, rfl⟩
  refine ⟨_, s.portDatum (portAddr s rp lo), (andThen_next _ _ _).2 ⟨_, hread, rfl⟩, wroteReg_writeReg (s.tookPort _ _) (low rv) _,
    fun w rest hin => ⟨?_, ?_⟩, fun hin => ⟨?_, ?_⟩, rfl, rfl, rfl, ⟨rfl, rfl⟩, fun _ => rfl, fun _ => rfl,
    ⟨rfl, rfl, ⟨rfl, rfl, rfl⟩⟩, ⟨rfl, rfl⟩, ⟨rfl, rfl⟩⟩
  · rw [State.portDatum, hin]
  · simp [hin]
  · rw [State.portDatum, hin]
  · simp [hin]

/-- Settles O41: the write to the port appends its event, and the instruction ends. -/
theorem portOutput : Obligations.PortOutput := by
  intro rp rv lo s h
  have hwrite := (portWrite_next s _ (portAddr s rp lo) (s.readReg (low rv))).2 ⟨h, rfl⟩
  exact ⟨_, (andThen_next _ _ _).2 ⟨_, hwrite, rfl⟩, rfl, rfl, rfl, fun _ => rfl, rfl, ⟨rfl, rfl⟩, fun _ => rfl, fun _ => rfl,
    ⟨rfl, rfl, ⟨rfl, rfl, rfl⟩⟩, ⟨rfl, rfl⟩, ⟨rfl, rfl⟩⟩

end Sys2Proof
end

section
/-! PROOFS (the family of 60_exceptions.md). The step: the instruction it runs, interrupt entry, the sleeping core, and an
interrupt with its return (R320 to R330). -/

namespace Sys2Proof

namespace Machine

/-! ### The step, by its three cases -/

/-- A sleeping core that takes no interrupt takes its sample of irq and nothing more (R320, R330). -/
theorem step_of_sleeping {s : State} (hint : s.interruptTaken = false) (hsl : s.sleeping = true) : step s = .next s.pollIrq := by
  simp [step, hint, hsl]

/-- With IE clear no interrupt is taken (R320). -/
theorem interruptTaken_of_ie {s : State} (hie : s.ie = false) : s.interruptTaken = false := by
  simp [State.interruptTaken, hie]

/-- The four flags in the bits they are saved in (R33). -/
theorem pack_bits (f : Flags) :
    [f.pack.getLsbD 3, f.pack.getLsbD 2, f.pack.getLsbD 1, f.pack.getLsbD 0] = [f.z, f.c, f.s, f.v] := by
  obtain ⟨z, c, s, v⟩ := f
  revert z c s v
  decide

/-! ### What differs from a state by samples of irq alone -/

/-- `t` is `s` but for the samples of irq it has taken. -/
def State.SampledOnly (s t : State) : Prop := t = { s with irqIn := t.irqIn, irqTaken := t.irqTaken }

theorem sampledOnly_pollIrq (s : State) : s.SampledOnly s.pollIrq := rfl

/-- A sample of irq changes no register, no flag, no space and no part of the setup. -/
theorem frame_sampledOnly {s t : State} (h : s.SampledOnly t) :
    s.SameRegs t ∧ t.flags = s.flags ∧ t.pc = s.pc ∧ t.immhi = s.immhi ∧ s.SameMem t ∧ s.SameUpper t ∧ s.SamePorts t ∧
      s.SameMode t ∧ s.SameContext t ∧ s.SameSetup t := by
  rw [h]
  exact ⟨fun _ => rfl, rfl, rfl, rfl, fun _ => rfl, fun _ => rfl, ⟨rfl, rfl, rfl⟩, ⟨rfl, rfl⟩, ⟨rfl, rfl⟩, ⟨rfl, rfl, rfl⟩⟩

/-- With IE clear a sleeping core only takes samples, in every state that it reaches (R330). -/
theorem sampledOnly_of_reaches {s t : State} (hsl : s.sleeping = true) (hie : s.ie = false) (h : s.Reaches t) :
    s.SampledOnly t := by
  induction h with
  | here s => rfl
  | step hstep _ ih =>
    obtain rfl := (next_inj _ _).1 ((step_of_sleeping (interruptTaken_of_ie hie) hsl).symm.trans hstep)
    exact ih hsl hie

end Machine

open Machine

/-! ### The statements -/

/-- Settles O44: the fetch reads the two bytes, and every word decodes to a well-formed row. -/
theorem stepRunsDecoded : Obligations.StepRunsDecoded := by
  intro s i rest hint hsl heven h h1 hdecode
  obtain ⟨rfl, -⟩ := Prod.mk.inj (Except.ok.inj hdecode)
  have hfetch := (fetchWord_next s _).2 ⟨heven, h, h1, rfl⟩
  refine ⟨?_, (isRow_decodeWord _).1, rfl, rfl⟩
  rw [step_awake hint hsl, hfetch]
  rfl

/-- Settles O45: the step is interrupt entry on the state whose sample of irq is taken. -/
theorem interruptTaken : Obligations.InterruptTaken :=
  fun s hie hirq => ⟨_, step_of_interrupt hie hirq, rfl, rfl, pack_bits s.flags, wroteReg_interruptEntry_pollIrq s, rfl, rfl, rfl,
    rfl, rfl, fun _ => rfl, fun _ => rfl, ⟨rfl, rfl, rfl⟩, ⟨rfl, rfl, rfl⟩, rfl, rfl⟩

/-- Settles O46: with IE clear, that a core sleeps and only takes samples holds of every state it reaches. -/
theorem sleepingCoreWaits : Obligations.SleepingCoreWaits := by
  unfold Obligations.SleepingCoreWaits
  refine ⟨fun s hsl hint => ?waits, fun s hsl hie t hreach => ?forever⟩
  case waits =>
    obtain ⟨hregs, hflags, hpc, himmhi, hmem, hupper, hports, hmode, hcontext, hsetup⟩ :=
      frame_sampledOnly (sampledOnly_pollIrq s)
    exact ⟨_, step_of_sleeping hint hsl, hregs, hflags, hpc, himmhi, hmem, hupper, hports, hmode, hcontext, hsetup, rfl, rfl⟩
  case forever =>
    obtain ⟨hregs, hflags, hpc, himmhi, hmem, hupper, hports, hmode, hcontext, hsetup⟩ :=
      frame_sampledOnly (sampledOnly_of_reaches hsl hie hreach)
    have hstep := step_of_sleeping (interruptTaken_of_ie (hmode.ie.trans hie)) (hmode.sleeping.trans hsl)
    exact ⟨hregs, hflags, hpc, himmhi, hmem, hupper, hports, hmode, hcontext, hsetup, _, hstep⟩

/-- Settles O47: entry saves what the return takes back, and the flags survive being packed. -/
theorem interruptIsTransparent : Obligations.InterruptIsTransparent := by
  unfold Obligations.InterruptIsTransparent
  refine ⟨by decide, fun s t u hie hirq hstep hkeeps _ hilr himmhi hflags => ?_⟩
  obtain rfl := (next_inj _ _).1 ((step_of_interrupt hie hirq).symm.trans hstep)
  have hsaved := wroteReg_interruptEntry_pollIrq s s.params.ilrIndex
  rw [if_pos ⟨rfl, hkeeps⟩] at hsaved
  refine ⟨_, exec_iret u, hilr.trans hsaved, himmhi, ?_, hie.symm, fun _ => rfl⟩
  rw [interruptReturn_flags, hflags]
  exact unpack_pack s.flags

end Sys2Proof
end
